-- ==== Sys2Proof/Word.lean ====
section
/-! DEFINITION. The word types of the Nibble CORE (00_scope.md R5): bytes, 16-bit words, the 64-bit cycle counter. -/

namespace Sys2Proof

/-- `u8` of 00_scope.md R5: the contents of A, X, Y, SP and of one array byte. -/
abbrev Byte := BitVec 8

/-- `u16` of 00_scope.md R5: PC and every address as issued on the bus. -/
abbrev Word := BitVec 16

/-- `u64` of 00_scope.md R5: the width of `cycles` (10_state.md R40). -/
abbrev Cycles := BitVec 64

end Sys2Proof
end

