-- ==== Sys2Proof/Config.lean ====
section
/-! DEFINITION. The block's parameters (00_scope.md R3) and the data they are made of: the flags, the direction of an
access, and the language in which the effect of a host-registered watch handler is written (20_memory.md R79). -/

namespace Sys2Proof

/-- The six flags of 10_state.md R36. There is no break flag. -/
structure Flags where
  c : Bool
  z : Bool
  i : Bool
  d : Bool
  v : Bool
  n : Bool
deriving DecidableEq, Repr

/-- The direction of a bus access, part of the dispatch key (20_memory.md R78). -/
inductive Dir where
  | read
  | write
deriving DecidableEq, Repr

/-- The byte a handler writes: a constant, or the value the handler was invoked with plus a constant (modulo 256). -/
inductive ByteArg where
  | lit (b : Byte)
  | seen (offset : Byte)
deriving DecidableEq, Repr

/-- A host command that a watch handler may not give: 70_reset_and_hazards.md R462 refuses it, with the refusal mark. -/
inductive RefusedCall where
  | cpuReset
  | piaReset
  | busReset
  | evokeRunAtAddress (a : Word)
deriving DecidableEq, Repr

/-- `ExtHandler(h, dir, a, v)` of 20_memory.md R79 as data: a finite sequence of host actions, each followed by the rest.
A `readShort` of a handler is two `memRead`s, low byte first (R74, R75). DEDUCED (log entry 6): the sequence depends on
`h`, `dir`, `a` and `v` alone, so the values its own reads return do not steer it. -/
inductive HandlerProg where
  | done
  | stop (rest : HandlerProg)
  | memRead (a : Word) (rest : HandlerProg)
  | memWrite (a : Word) (v : ByteArg) (rest : HandlerProg)
  | suppressed (body : HandlerProg) (rest : HandlerProg)
  | addReadWatch (a : Word) (h : Nat) (rest : HandlerProg)
  | addWriteWatch (a : Word) (h : Nat) (rest : HandlerProg)
  | refusedCall (c : RefusedCall) (rest : HandlerProg)
deriving DecidableEq, Repr

/-- One rule of the `ExtHandler` table: the handler it is about, and the direction, address and value it applies to
(`none` for any). -/
structure ExtRule where
  handler : Nat
  dir : Option Dir
  addr : Option Word
  value : Option Byte
  prog : HandlerProg
deriving DecidableEq, Repr

/-- The parameters of 00_scope.md R3 that a step can depend on, fixed for a machine's lifetime.
`cycleCost` lists the opcodes whose cost replaces the one of 30_encoding.md R127 (log entry 12); `batchSizePred` is
BATCH_SIZE less one, `none` where it is left open (log entry 9); `extHandler` is the table of `ExtHandler`, its first
matching rule deciding (log entry 6). -/
structure Config where
  memSize : Nat
  resetVector : Word
  spReset : Byte
  flagsReset : Flags
  phpBits54 : BitVec 2
  enableBrkRti : Bool
  jmpIndPageWrap : Bool
  cycleCost : List (Byte × Cycles)
  batchSizePred : Option Nat
  piaBase : Word
  piaDropWhenDisabled : Bool
  extHandler : List ExtRule
deriving DecidableEq, Repr

/-- The defaults of 00_scope.md R3: the Nibble CORE itself. BATCH_SIZE has none. -/
def Config.nibble : Config where
  memSize := 65536
  resetVector := 0xFFFC
  spReset := 0xFD
  flagsReset := { c := false, z := false, i := true, d := false, v := false, n := false }
  phpBits54 := 0b11
  enableBrkRti := false
  jmpIndPageWrap := false
  cycleCost := []
  batchSizePred := none
  piaBase := 0xD010
  piaDropWhenDisabled := true
  extHandler := []

/-- BATCH_SIZE less one where the configuration leaves it open: 00_scope.md R3 and D27 give it "no default", so nothing in
the model can see its value (log entry 9). -/
opaque Config.openBatchSizePred : Nat

/-- BATCH_SIZE of 00_scope.md R3, "any positive integer": the instructions of one batch (60_exceptions.md R433). -/
def Config.batchSize (cfg : Config) : Nat := cfg.batchSizePred.getD Config.openBatchSizePred + 1

end Sys2Proof
end

