-- ==== Sys2Proof/Machine/Bits.lean ====
section
/-! DEFINITION. The bit-field, byte-order and extension helpers of 00_scope.md R4 and R5. -/

namespace Sys2Proof

/-- `hi8 ++ lo8` of 00_scope.md R4: `hi8*256 + lo8`. -/
def joinBytes (hi lo : Byte) : Word := hi ++ lo

/-- `v[7:0]` of a word. -/
def lowByte (w : Word) : Byte := w.extractLsb' 0 8

/-- `v[15:8]` of a word. -/
def highByte (w : Word) : Byte := w.extractLsb' 8 8

/-- `zext_16` of 00_scope.md R5. -/
def zext (b : Byte) : Word := b.setWidth 16

/-- `sext_16` of 00_scope.md R5: `v8 + (v8[7] ? 0xFF00 : 0)`. -/
def sext (b : Byte) : Word := b.signExtend 16

/-- A flag as the number 0 or 1. -/
def bitNat (b : Bool) : Nat := if b then 1 else 0

end Sys2Proof
end

