-- ==== Sys2Proof/Syntax.lean ====
section
/-! DEFINITION. The instructions as syntax: the addressing modes (30_encoding.md R122), the mnemonics (R127) and `Instr`,
one constructor per row of spec/opcode_table.json. -/

namespace Sys2Proof

/-- The eight modes of 30_encoding.md R122 whose effective address is that of a data byte. -/
inductive MemMode where
  | zp (z : Byte)
  | zpx (z : Byte)
  | zpy (z : Byte)
  | abs (w : Word)
  | absx (w : Word)
  | absy (w : Word)
  | indx (z : Byte)
  | indy (z : Byte)
deriving DecidableEq, Repr

/-- The thirteen modes of 30_encoding.md R122 with their operand bytes: `mem` stands for the eight of `MemMode`. -/
inductive Operand where
  | imp
  | acc
  | imm (v : Byte)
  | mem (m : MemMode)
  | ind (w : Word)
  | rel (d : Byte)
deriving DecidableEq, Repr

/-- The names of the thirteen modes (30_encoding.md R122). -/
inductive Mode where
  | imp | acc | imm | zp | zpx | zpy | abs | absx | absy | ind | indx | indy | rel
deriving DecidableEq, Repr

/-- The mode of a memory operand. -/
def MemMode.mode : MemMode → Mode
  | .zp _ => .zp
  | .zpx _ => .zpx
  | .zpy _ => .zpy
  | .abs _ => .abs
  | .absx _ => .absx
  | .absy _ => .absy
  | .indx _ => .indx
  | .indy _ => .indy

/-- The mode of an operand. -/
def Operand.mode : Operand → Mode
  | .imp => .imp
  | .acc => .acc
  | .imm _ => .imm
  | .mem m => m.mode
  | .ind _ => .ind
  | .rel _ => .rel

/-- The 56 mnemonics of 30_encoding.md R127. -/
inductive Mnemonic where
  | lda | ldx | ldy | sta | stx | sty | adc | sbc | inc | dec
  | inx | iny | dex | dey | asl | lsr | rol | ror | and | ora
  | eor | cmp | cpx | cpy | bit | bpl | bmi | bvc | bvs | bcc
  | bcs | bne | beq | tax | txa | tay | tya | tsx | txs | pha
  | php | pla | plp | jmp | jsr | rts | sec | sed | sei | clc
  | cld | cli | clv | nop | brk | rti
deriving DecidableEq, Repr

/-- One constructor per row of spec/opcode_table.json (30_encoding.md R127): the mnemonic, and the mode where the mnemonic
has more than one. The argument is the operand byte of format F2 or the operand word `hi ++ lo` of format F3 (R121). -/
inductive Instr where
  | ldaImm (v : Byte)
  | ldaZp (z : Byte)
  | ldaZpx (z : Byte)
  | ldaAbs (w : Word)
  | ldaAbsx (w : Word)
  | ldaAbsy (w : Word)
  | ldaIndx (z : Byte)
  | ldaIndy (z : Byte)
  | ldxImm (v : Byte)
  | ldxZp (z : Byte)
  | ldxZpy (z : Byte)
  | ldxAbs (w : Word)
  | ldxAbsy (w : Word)
  | ldyImm (v : Byte)
  | ldyZp (z : Byte)
  | ldyZpx (z : Byte)
  | ldyAbs (w : Word)
  | ldyAbsx (w : Word)
  | staZp (z : Byte)
  | staZpx (z : Byte)
  | staAbs (w : Word)
  | staAbsx (w : Word)
  | staAbsy (w : Word)
  | staIndx (z : Byte)
  | staIndy (z : Byte)
  | stxZp (z : Byte)
  | stxZpy (z : Byte)
  | stxAbs (w : Word)
  | styZp (z : Byte)
  | styZpx (z : Byte)
  | styAbs (w : Word)
  | adcImm (v : Byte)
  | adcZp (z : Byte)
  | adcZpx (z : Byte)
  | adcAbs (w : Word)
  | adcAbsx (w : Word)
  | adcAbsy (w : Word)
  | adcIndx (z : Byte)
  | adcIndy (z : Byte)
  | sbcImm (v : Byte)
  | sbcZp (z : Byte)
  | sbcZpx (z : Byte)
  | sbcAbs (w : Word)
  | sbcAbsx (w : Word)
  | sbcAbsy (w : Word)
  | sbcIndx (z : Byte)
  | sbcIndy (z : Byte)
  | incZp (z : Byte)
  | incZpx (z : Byte)
  | incAbs (w : Word)
  | incAbsx (w : Word)
  | decZp (z : Byte)
  | decZpx (z : Byte)
  | decAbs (w : Word)
  | decAbsx (w : Word)
  | inx
  | iny
  | dex
  | dey
  | aslAcc
  | aslZp (z : Byte)
  | aslZpx (z : Byte)
  | aslAbs (w : Word)
  | aslAbsx (w : Word)
  | lsrAcc
  | lsrZp (z : Byte)
  | lsrZpx (z : Byte)
  | lsrAbs (w : Word)
  | lsrAbsx (w : Word)
  | rolAcc
  | rolZp (z : Byte)
  | rolZpx (z : Byte)
  | rolAbs (w : Word)
  | rolAbsx (w : Word)
  | rorAcc
  | rorZp (z : Byte)
  | rorZpx (z : Byte)
  | rorAbs (w : Word)
  | rorAbsx (w : Word)
  | andImm (v : Byte)
  | andZp (z : Byte)
  | andZpx (z : Byte)
  | andAbs (w : Word)
  | andAbsx (w : Word)
  | andAbsy (w : Word)
  | andIndx (z : Byte)
  | andIndy (z : Byte)
  | oraImm (v : Byte)
  | oraZp (z : Byte)
  | oraZpx (z : Byte)
  | oraAbs (w : Word)
  | oraAbsx (w : Word)
  | oraAbsy (w : Word)
  | oraIndx (z : Byte)
  | oraIndy (z : Byte)
  | eorImm (v : Byte)
  | eorZp (z : Byte)
  | eorZpx (z : Byte)
  | eorAbs (w : Word)
  | eorAbsx (w : Word)
  | eorAbsy (w : Word)
  | eorIndx (z : Byte)
  | eorIndy (z : Byte)
  | cmpImm (v : Byte)
  | cmpZp (z : Byte)
  | cmpZpx (z : Byte)
  | cmpAbs (w : Word)
  | cmpAbsx (w : Word)
  | cmpAbsy (w : Word)
  | cmpIndx (z : Byte)
  | cmpIndy (z : Byte)
  | cpxImm (v : Byte)
  | cpxZp (z : Byte)
  | cpxAbs (w : Word)
  | cpyImm (v : Byte)
  | cpyZp (z : Byte)
  | cpyAbs (w : Word)
  | bitZp (z : Byte)
  | bitAbs (w : Word)
  | bpl (d : Byte)
  | bmi (d : Byte)
  | bvc (d : Byte)
  | bvs (d : Byte)
  | bcc (d : Byte)
  | bcs (d : Byte)
  | bne (d : Byte)
  | beq (d : Byte)
  | tax
  | txa
  | tay
  | tya
  | tsx
  | txs
  | pha
  | php
  | pla
  | plp
  | jmpAbs (w : Word)
  | jmpInd (w : Word)
  | jsr (w : Word)
  | rts
  | sec
  | sed
  | sei
  | clc
  | cld
  | cli
  | clv
  | nop
  | brk
  | rti
deriving DecidableEq, Repr

end Sys2Proof
end

