-- ==== Sys2Proof/Decode.lean ====
section
/-! DEFINITION. The decoder and the encoder (30_encoding.md): the decode table of R127 as rows, `Decode` of R131, decoding
of a byte sequence, the encoder from the formats of R121, and the assembler notation of R132. -/

namespace Sys2Proof

/-- The three formats of 30_encoding.md R121, each with the instruction its operand makes. -/
inductive Form where
  | f1 (i : Instr)
  | f2 (mk : Byte → Instr)
  | f3 (mk : Word → Instr)

/-- One row of 30_encoding.md R127: the opcode byte, its fixed cycle cost and its instruction. -/
structure Row where
  opcode : Byte
  cycles : Cycles
  form : Form

/-- Opcodes 0x00 to 0x0F of 30_encoding.md R127. -/
def opcodeRows0 : List Row := [
  ⟨0x00, 7, .f1 .brk⟩, ⟨0x01, 6, .f2 .oraIndx⟩, ⟨0x05, 3, .f2 .oraZp⟩,
  ⟨0x06, 5, .f2 .aslZp⟩, ⟨0x08, 3, .f1 .php⟩, ⟨0x09, 2, .f2 .oraImm⟩,
  ⟨0x0A, 2, .f1 .aslAcc⟩, ⟨0x0D, 4, .f3 .oraAbs⟩, ⟨0x0E, 6, .f3 .aslAbs⟩]

/-- Opcodes 0x10 to 0x1F of 30_encoding.md R127. -/
def opcodeRows1 : List Row := [
  ⟨0x10, 2, .f2 .bpl⟩, ⟨0x11, 5, .f2 .oraIndy⟩, ⟨0x15, 4, .f2 .oraZpx⟩,
  ⟨0x16, 6, .f2 .aslZpx⟩, ⟨0x18, 2, .f1 .clc⟩, ⟨0x19, 4, .f3 .oraAbsy⟩,
  ⟨0x1D, 4, .f3 .oraAbsx⟩, ⟨0x1E, 7, .f3 .aslAbsx⟩]

/-- Opcodes 0x20 to 0x2F of 30_encoding.md R127. -/
def opcodeRows2 : List Row := [
  ⟨0x20, 6, .f3 .jsr⟩, ⟨0x21, 6, .f2 .andIndx⟩, ⟨0x24, 3, .f2 .bitZp⟩,
  ⟨0x25, 3, .f2 .andZp⟩, ⟨0x26, 5, .f2 .rolZp⟩, ⟨0x28, 4, .f1 .plp⟩,
  ⟨0x29, 2, .f2 .andImm⟩, ⟨0x2A, 2, .f1 .rolAcc⟩, ⟨0x2C, 4, .f3 .bitAbs⟩,
  ⟨0x2D, 4, .f3 .andAbs⟩, ⟨0x2E, 6, .f3 .rolAbs⟩]

/-- Opcodes 0x30 to 0x3F of 30_encoding.md R127. -/
def opcodeRows3 : List Row := [
  ⟨0x30, 2, .f2 .bmi⟩, ⟨0x31, 5, .f2 .andIndy⟩, ⟨0x35, 4, .f2 .andZpx⟩,
  ⟨0x36, 6, .f2 .rolZpx⟩, ⟨0x38, 2, .f1 .sec⟩, ⟨0x39, 4, .f3 .andAbsy⟩,
  ⟨0x3D, 4, .f3 .andAbsx⟩, ⟨0x3E, 7, .f3 .rolAbsx⟩]

/-- Opcodes 0x40 to 0x4F of 30_encoding.md R127. -/
def opcodeRows4 : List Row := [
  ⟨0x40, 6, .f1 .rti⟩, ⟨0x41, 6, .f2 .eorIndx⟩, ⟨0x45, 3, .f2 .eorZp⟩,
  ⟨0x46, 5, .f2 .lsrZp⟩, ⟨0x48, 3, .f1 .pha⟩, ⟨0x49, 2, .f2 .eorImm⟩,
  ⟨0x4A, 2, .f1 .lsrAcc⟩, ⟨0x4C, 3, .f3 .jmpAbs⟩, ⟨0x4D, 4, .f3 .eorAbs⟩,
  ⟨0x4E, 6, .f3 .lsrAbs⟩]

/-- Opcodes 0x50 to 0x5F of 30_encoding.md R127. -/
def opcodeRows5 : List Row := [
  ⟨0x50, 2, .f2 .bvc⟩, ⟨0x51, 5, .f2 .eorIndy⟩, ⟨0x55, 4, .f2 .eorZpx⟩,
  ⟨0x56, 6, .f2 .lsrZpx⟩, ⟨0x58, 2, .f1 .cli⟩, ⟨0x59, 4, .f3 .eorAbsy⟩,
  ⟨0x5D, 4, .f3 .eorAbsx⟩, ⟨0x5E, 7, .f3 .lsrAbsx⟩]

/-- Opcodes 0x60 to 0x6F of 30_encoding.md R127. -/
def opcodeRows6 : List Row := [
  ⟨0x60, 6, .f1 .rts⟩, ⟨0x61, 6, .f2 .adcIndx⟩, ⟨0x65, 3, .f2 .adcZp⟩,
  ⟨0x66, 5, .f2 .rorZp⟩, ⟨0x68, 4, .f1 .pla⟩, ⟨0x69, 2, .f2 .adcImm⟩,
  ⟨0x6A, 2, .f1 .rorAcc⟩, ⟨0x6C, 5, .f3 .jmpInd⟩, ⟨0x6D, 4, .f3 .adcAbs⟩,
  ⟨0x6E, 6, .f3 .rorAbs⟩]

/-- Opcodes 0x70 to 0x7F of 30_encoding.md R127. -/
def opcodeRows7 : List Row := [
  ⟨0x70, 2, .f2 .bvs⟩, ⟨0x71, 5, .f2 .adcIndy⟩, ⟨0x75, 4, .f2 .adcZpx⟩,
  ⟨0x76, 6, .f2 .rorZpx⟩, ⟨0x78, 2, .f1 .sei⟩, ⟨0x79, 4, .f3 .adcAbsy⟩,
  ⟨0x7D, 4, .f3 .adcAbsx⟩, ⟨0x7E, 7, .f3 .rorAbsx⟩]

/-- Opcodes 0x80 to 0x8F of 30_encoding.md R127. -/
def opcodeRows8 : List Row := [
  ⟨0x81, 6, .f2 .staIndx⟩, ⟨0x84, 3, .f2 .styZp⟩, ⟨0x85, 3, .f2 .staZp⟩,
  ⟨0x86, 3, .f2 .stxZp⟩, ⟨0x88, 2, .f1 .dey⟩, ⟨0x8A, 2, .f1 .txa⟩,
  ⟨0x8C, 4, .f3 .styAbs⟩, ⟨0x8D, 4, .f3 .staAbs⟩, ⟨0x8E, 4, .f3 .stxAbs⟩]

/-- Opcodes 0x90 to 0x9F of 30_encoding.md R127. -/
def opcodeRows9 : List Row := [
  ⟨0x90, 2, .f2 .bcc⟩, ⟨0x91, 6, .f2 .staIndy⟩, ⟨0x94, 4, .f2 .styZpx⟩,
  ⟨0x95, 4, .f2 .staZpx⟩, ⟨0x96, 4, .f2 .stxZpy⟩, ⟨0x98, 2, .f1 .tya⟩,
  ⟨0x99, 5, .f3 .staAbsy⟩, ⟨0x9A, 2, .f1 .txs⟩, ⟨0x9D, 5, .f3 .staAbsx⟩]

/-- Opcodes 0xA0 to 0xAF of 30_encoding.md R127. -/
def opcodeRowsA : List Row := [
  ⟨0xA0, 2, .f2 .ldyImm⟩, ⟨0xA1, 6, .f2 .ldaIndx⟩, ⟨0xA2, 2, .f2 .ldxImm⟩,
  ⟨0xA4, 3, .f2 .ldyZp⟩, ⟨0xA5, 3, .f2 .ldaZp⟩, ⟨0xA6, 3, .f2 .ldxZp⟩,
  ⟨0xA8, 2, .f1 .tay⟩, ⟨0xA9, 2, .f2 .ldaImm⟩, ⟨0xAA, 2, .f1 .tax⟩,
  ⟨0xAC, 4, .f3 .ldyAbs⟩, ⟨0xAD, 4, .f3 .ldaAbs⟩, ⟨0xAE, 4, .f3 .ldxAbs⟩]

/-- Opcodes 0xB0 to 0xBF of 30_encoding.md R127. -/
def opcodeRowsB : List Row := [
  ⟨0xB0, 2, .f2 .bcs⟩, ⟨0xB1, 5, .f2 .ldaIndy⟩, ⟨0xB4, 4, .f2 .ldyZpx⟩,
  ⟨0xB5, 4, .f2 .ldaZpx⟩, ⟨0xB6, 4, .f2 .ldxZpy⟩, ⟨0xB8, 2, .f1 .clv⟩,
  ⟨0xB9, 4, .f3 .ldaAbsy⟩, ⟨0xBA, 2, .f1 .tsx⟩, ⟨0xBC, 4, .f3 .ldyAbsx⟩,
  ⟨0xBD, 4, .f3 .ldaAbsx⟩, ⟨0xBE, 4, .f3 .ldxAbsy⟩]

/-- Opcodes 0xC0 to 0xCF of 30_encoding.md R127. -/
def opcodeRowsC : List Row := [
  ⟨0xC0, 2, .f2 .cpyImm⟩, ⟨0xC1, 6, .f2 .cmpIndx⟩, ⟨0xC4, 3, .f2 .cpyZp⟩,
  ⟨0xC5, 3, .f2 .cmpZp⟩, ⟨0xC6, 5, .f2 .decZp⟩, ⟨0xC8, 2, .f1 .iny⟩,
  ⟨0xC9, 2, .f2 .cmpImm⟩, ⟨0xCA, 2, .f1 .dex⟩, ⟨0xCC, 4, .f3 .cpyAbs⟩,
  ⟨0xCD, 4, .f3 .cmpAbs⟩, ⟨0xCE, 6, .f3 .decAbs⟩]

/-- Opcodes 0xD0 to 0xDF of 30_encoding.md R127. -/
def opcodeRowsD : List Row := [
  ⟨0xD0, 2, .f2 .bne⟩, ⟨0xD1, 5, .f2 .cmpIndy⟩, ⟨0xD5, 4, .f2 .cmpZpx⟩,
  ⟨0xD6, 6, .f2 .decZpx⟩, ⟨0xD8, 2, .f1 .cld⟩, ⟨0xD9, 4, .f3 .cmpAbsy⟩,
  ⟨0xDD, 4, .f3 .cmpAbsx⟩, ⟨0xDE, 7, .f3 .decAbsx⟩]

/-- Opcodes 0xE0 to 0xEF of 30_encoding.md R127. -/
def opcodeRowsE : List Row := [
  ⟨0xE0, 2, .f2 .cpxImm⟩, ⟨0xE1, 6, .f2 .sbcIndx⟩, ⟨0xE4, 3, .f2 .cpxZp⟩,
  ⟨0xE5, 3, .f2 .sbcZp⟩, ⟨0xE6, 5, .f2 .incZp⟩, ⟨0xE8, 2, .f1 .inx⟩,
  ⟨0xE9, 2, .f2 .sbcImm⟩, ⟨0xEA, 1, .f1 .nop⟩, ⟨0xEC, 4, .f3 .cpxAbs⟩,
  ⟨0xED, 4, .f3 .sbcAbs⟩, ⟨0xEE, 6, .f3 .incAbs⟩]

/-- Opcodes 0xF0 to 0xFF of 30_encoding.md R127. -/
def opcodeRowsF : List Row := [
  ⟨0xF0, 2, .f2 .beq⟩, ⟨0xF1, 5, .f2 .sbcIndy⟩, ⟨0xF5, 4, .f2 .sbcZpx⟩,
  ⟨0xF6, 6, .f2 .incZpx⟩, ⟨0xF8, 2, .f1 .sed⟩, ⟨0xF9, 4, .f3 .sbcAbsy⟩,
  ⟨0xFD, 4, .f3 .sbcAbsx⟩, ⟨0xFE, 7, .f3 .incAbsx⟩]

/-- The decode table of 30_encoding.md R127, 151 rows. -/
def opcodeTable : List Row :=
  opcodeRows0 ++ opcodeRows1 ++ opcodeRows2 ++ opcodeRows3 ++ opcodeRows4 ++ opcodeRows5 ++
  opcodeRows6 ++ opcodeRows7 ++ opcodeRows8 ++ opcodeRows9 ++ opcodeRowsA ++
  opcodeRowsB ++ opcodeRowsC ++ opcodeRowsD ++ opcodeRowsE ++ opcodeRowsF

/-- The row of an opcode byte, `none` for a byte that 30_encoding.md R128 calls unmapped under every configuration. -/
def rowOf (op : Byte) : Option Row := opcodeTable.find? (fun r => r.opcode == op)

/-- The two opcodes that decode only when `ENABLE_BRK_RTI` is set (30_encoding.md R128). -/
def isBrkOrRti (op : Byte) : Bool := op == 0x00 || op == 0x40

/-- `Decode(op8)` of 30_encoding.md R131: "Decoding reads no state other than op and the configuration". -/
def decodeOpcode (enableBrkRti : Bool) (op : Byte) : Option Form :=
  if isBrkOrRti op && !enableBrkRti then none else (rowOf op).map Row.form

/-- Why a byte sequence is no instruction. -/
inductive DecodeError where
  /-- The first byte is unmapped (30_encoding.md R128). -/
  | unmapped (op : Byte)
  /-- The first byte is 0x00 or 0x40 and `ENABLE_BRK_RTI` is false (R131). -/
  | brkRtiDisabled (op : Byte)
  /-- The sequence ends before the instruction does (R120). -/
  | truncated
deriving DecidableEq, Repr

/-- Decoding of a byte sequence, the first byte at the lowest address: the instruction and the bytes after it.
The format fixes how many operand bytes follow (30_encoding.md R120, R121). -/
def decode (enableBrkRti : Bool) : List Byte → Except DecodeError (Instr × List Byte)
  | [] => .error .truncated
  | op :: rest =>
    match decodeOpcode enableBrkRti op with
    | none => .error (if isBrkOrRti op then .brkRtiDisabled op else .unmapped op)
    | some (.f1 i) => .ok (i, rest)
    | some (.f2 mk) =>
      match rest with
      | b1 :: rest' => .ok (mk b1, rest')
      | _ => .error .truncated
    | some (.f3 mk) =>
      match rest with
      | lo :: hi :: rest' => .ok (mk (joinBytes hi lo), rest')
      | _ => .error .truncated

/-- An instruction as 30_encoding.md R127 writes it: opcode, mnemonic, and mode with operand. -/
structure InstrView where
  opcode : Byte
  mnemonic : Mnemonic
  operand : Operand
deriving DecidableEq, Repr

/-- The opcode, mnemonic and mode of every instruction (30_encoding.md R127). -/
def Instr.view : Instr → InstrView
  | .ldaImm v => ⟨0xA9, .lda, .imm v⟩
  | .ldaZp z => ⟨0xA5, .lda, .mem (.zp z)⟩
  | .ldaZpx z => ⟨0xB5, .lda, .mem (.zpx z)⟩
  | .ldaAbs w => ⟨0xAD, .lda, .mem (.abs w)⟩
  | .ldaAbsx w => ⟨0xBD, .lda, .mem (.absx w)⟩
  | .ldaAbsy w => ⟨0xB9, .lda, .mem (.absy w)⟩
  | .ldaIndx z => ⟨0xA1, .lda, .mem (.indx z)⟩
  | .ldaIndy z => ⟨0xB1, .lda, .mem (.indy z)⟩
  | .ldxImm v => ⟨0xA2, .ldx, .imm v⟩
  | .ldxZp z => ⟨0xA6, .ldx, .mem (.zp z)⟩
  | .ldxZpy z => ⟨0xB6, .ldx, .mem (.zpy z)⟩
  | .ldxAbs w => ⟨0xAE, .ldx, .mem (.abs w)⟩
  | .ldxAbsy w => ⟨0xBE, .ldx, .mem (.absy w)⟩
  | .ldyImm v => ⟨0xA0, .ldy, .imm v⟩
  | .ldyZp z => ⟨0xA4, .ldy, .mem (.zp z)⟩
  | .ldyZpx z => ⟨0xB4, .ldy, .mem (.zpx z)⟩
  | .ldyAbs w => ⟨0xAC, .ldy, .mem (.abs w)⟩
  | .ldyAbsx w => ⟨0xBC, .ldy, .mem (.absx w)⟩
  | .staZp z => ⟨0x85, .sta, .mem (.zp z)⟩
  | .staZpx z => ⟨0x95, .sta, .mem (.zpx z)⟩
  | .staAbs w => ⟨0x8D, .sta, .mem (.abs w)⟩
  | .staAbsx w => ⟨0x9D, .sta, .mem (.absx w)⟩
  | .staAbsy w => ⟨0x99, .sta, .mem (.absy w)⟩
  | .staIndx z => ⟨0x81, .sta, .mem (.indx z)⟩
  | .staIndy z => ⟨0x91, .sta, .mem (.indy z)⟩
  | .stxZp z => ⟨0x86, .stx, .mem (.zp z)⟩
  | .stxZpy z => ⟨0x96, .stx, .mem (.zpy z)⟩
  | .stxAbs w => ⟨0x8E, .stx, .mem (.abs w)⟩
  | .styZp z => ⟨0x84, .sty, .mem (.zp z)⟩
  | .styZpx z => ⟨0x94, .sty, .mem (.zpx z)⟩
  | .styAbs w => ⟨0x8C, .sty, .mem (.abs w)⟩
  | .adcImm v => ⟨0x69, .adc, .imm v⟩
  | .adcZp z => ⟨0x65, .adc, .mem (.zp z)⟩
  | .adcZpx z => ⟨0x75, .adc, .mem (.zpx z)⟩
  | .adcAbs w => ⟨0x6D, .adc, .mem (.abs w)⟩
  | .adcAbsx w => ⟨0x7D, .adc, .mem (.absx w)⟩
  | .adcAbsy w => ⟨0x79, .adc, .mem (.absy w)⟩
  | .adcIndx z => ⟨0x61, .adc, .mem (.indx z)⟩
  | .adcIndy z => ⟨0x71, .adc, .mem (.indy z)⟩
  | .sbcImm v => ⟨0xE9, .sbc, .imm v⟩
  | .sbcZp z => ⟨0xE5, .sbc, .mem (.zp z)⟩
  | .sbcZpx z => ⟨0xF5, .sbc, .mem (.zpx z)⟩
  | .sbcAbs w => ⟨0xED, .sbc, .mem (.abs w)⟩
  | .sbcAbsx w => ⟨0xFD, .sbc, .mem (.absx w)⟩
  | .sbcAbsy w => ⟨0xF9, .sbc, .mem (.absy w)⟩
  | .sbcIndx z => ⟨0xE1, .sbc, .mem (.indx z)⟩
  | .sbcIndy z => ⟨0xF1, .sbc, .mem (.indy z)⟩
  | .incZp z => ⟨0xE6, .inc, .mem (.zp z)⟩
  | .incZpx z => ⟨0xF6, .inc, .mem (.zpx z)⟩
  | .incAbs w => ⟨0xEE, .inc, .mem (.abs w)⟩
  | .incAbsx w => ⟨0xFE, .inc, .mem (.absx w)⟩
  | .decZp z => ⟨0xC6, .dec, .mem (.zp z)⟩
  | .decZpx z => ⟨0xD6, .dec, .mem (.zpx z)⟩
  | .decAbs w => ⟨0xCE, .dec, .mem (.abs w)⟩
  | .decAbsx w => ⟨0xDE, .dec, .mem (.absx w)⟩
  | .inx => ⟨0xE8, .inx, .imp⟩
  | .iny => ⟨0xC8, .iny, .imp⟩
  | .dex => ⟨0xCA, .dex, .imp⟩
  | .dey => ⟨0x88, .dey, .imp⟩
  | .aslAcc => ⟨0x0A, .asl, .acc⟩
  | .aslZp z => ⟨0x06, .asl, .mem (.zp z)⟩
  | .aslZpx z => ⟨0x16, .asl, .mem (.zpx z)⟩
  | .aslAbs w => ⟨0x0E, .asl, .mem (.abs w)⟩
  | .aslAbsx w => ⟨0x1E, .asl, .mem (.absx w)⟩
  | .lsrAcc => ⟨0x4A, .lsr, .acc⟩
  | .lsrZp z => ⟨0x46, .lsr, .mem (.zp z)⟩
  | .lsrZpx z => ⟨0x56, .lsr, .mem (.zpx z)⟩
  | .lsrAbs w => ⟨0x4E, .lsr, .mem (.abs w)⟩
  | .lsrAbsx w => ⟨0x5E, .lsr, .mem (.absx w)⟩
  | .rolAcc => ⟨0x2A, .rol, .acc⟩
  | .rolZp z => ⟨0x26, .rol, .mem (.zp z)⟩
  | .rolZpx z => ⟨0x36, .rol, .mem (.zpx z)⟩
  | .rolAbs w => ⟨0x2E, .rol, .mem (.abs w)⟩
  | .rolAbsx w => ⟨0x3E, .rol, .mem (.absx w)⟩
  | .rorAcc => ⟨0x6A, .ror, .acc⟩
  | .rorZp z => ⟨0x66, .ror, .mem (.zp z)⟩
  | .rorZpx z => ⟨0x76, .ror, .mem (.zpx z)⟩
  | .rorAbs w => ⟨0x6E, .ror, .mem (.abs w)⟩
  | .rorAbsx w => ⟨0x7E, .ror, .mem (.absx w)⟩
  | .andImm v => ⟨0x29, .and, .imm v⟩
  | .andZp z => ⟨0x25, .and, .mem (.zp z)⟩
  | .andZpx z => ⟨0x35, .and, .mem (.zpx z)⟩
  | .andAbs w => ⟨0x2D, .and, .mem (.abs w)⟩
  | .andAbsx w => ⟨0x3D, .and, .mem (.absx w)⟩
  | .andAbsy w => ⟨0x39, .and, .mem (.absy w)⟩
  | .andIndx z => ⟨0x21, .and, .mem (.indx z)⟩
  | .andIndy z => ⟨0x31, .and, .mem (.indy z)⟩
  | .oraImm v => ⟨0x09, .ora, .imm v⟩
  | .oraZp z => ⟨0x05, .ora, .mem (.zp z)⟩
  | .oraZpx z => ⟨0x15, .ora, .mem (.zpx z)⟩
  | .oraAbs w => ⟨0x0D, .ora, .mem (.abs w)⟩
  | .oraAbsx w => ⟨0x1D, .ora, .mem (.absx w)⟩
  | .oraAbsy w => ⟨0x19, .ora, .mem (.absy w)⟩
  | .oraIndx z => ⟨0x01, .ora, .mem (.indx z)⟩
  | .oraIndy z => ⟨0x11, .ora, .mem (.indy z)⟩
  | .eorImm v => ⟨0x49, .eor, .imm v⟩
  | .eorZp z => ⟨0x45, .eor, .mem (.zp z)⟩
  | .eorZpx z => ⟨0x55, .eor, .mem (.zpx z)⟩
  | .eorAbs w => ⟨0x4D, .eor, .mem (.abs w)⟩
  | .eorAbsx w => ⟨0x5D, .eor, .mem (.absx w)⟩
  | .eorAbsy w => ⟨0x59, .eor, .mem (.absy w)⟩
  | .eorIndx z => ⟨0x41, .eor, .mem (.indx z)⟩
  | .eorIndy z => ⟨0x51, .eor, .mem (.indy z)⟩
  | .cmpImm v => ⟨0xC9, .cmp, .imm v⟩
  | .cmpZp z => ⟨0xC5, .cmp, .mem (.zp z)⟩
  | .cmpZpx z => ⟨0xD5, .cmp, .mem (.zpx z)⟩
  | .cmpAbs w => ⟨0xCD, .cmp, .mem (.abs w)⟩
  | .cmpAbsx w => ⟨0xDD, .cmp, .mem (.absx w)⟩
  | .cmpAbsy w => ⟨0xD9, .cmp, .mem (.absy w)⟩
  | .cmpIndx z => ⟨0xC1, .cmp, .mem (.indx z)⟩
  | .cmpIndy z => ⟨0xD1, .cmp, .mem (.indy z)⟩
  | .cpxImm v => ⟨0xE0, .cpx, .imm v⟩
  | .cpxZp z => ⟨0xE4, .cpx, .mem (.zp z)⟩
  | .cpxAbs w => ⟨0xEC, .cpx, .mem (.abs w)⟩
  | .cpyImm v => ⟨0xC0, .cpy, .imm v⟩
  | .cpyZp z => ⟨0xC4, .cpy, .mem (.zp z)⟩
  | .cpyAbs w => ⟨0xCC, .cpy, .mem (.abs w)⟩
  | .bitZp z => ⟨0x24, .bit, .mem (.zp z)⟩
  | .bitAbs w => ⟨0x2C, .bit, .mem (.abs w)⟩
  | .bpl d => ⟨0x10, .bpl, .rel d⟩
  | .bmi d => ⟨0x30, .bmi, .rel d⟩
  | .bvc d => ⟨0x50, .bvc, .rel d⟩
  | .bvs d => ⟨0x70, .bvs, .rel d⟩
  | .bcc d => ⟨0x90, .bcc, .rel d⟩
  | .bcs d => ⟨0xB0, .bcs, .rel d⟩
  | .bne d => ⟨0xD0, .bne, .rel d⟩
  | .beq d => ⟨0xF0, .beq, .rel d⟩
  | .tax => ⟨0xAA, .tax, .imp⟩
  | .txa => ⟨0x8A, .txa, .imp⟩
  | .tay => ⟨0xA8, .tay, .imp⟩
  | .tya => ⟨0x98, .tya, .imp⟩
  | .tsx => ⟨0xBA, .tsx, .imp⟩
  | .txs => ⟨0x9A, .txs, .imp⟩
  | .pha => ⟨0x48, .pha, .imp⟩
  | .php => ⟨0x08, .php, .imp⟩
  | .pla => ⟨0x68, .pla, .imp⟩
  | .plp => ⟨0x28, .plp, .imp⟩
  | .jmpAbs w => ⟨0x4C, .jmp, .mem (.abs w)⟩
  | .jmpInd w => ⟨0x6C, .jmp, .ind w⟩
  | .jsr w => ⟨0x20, .jsr, .mem (.abs w)⟩
  | .rts => ⟨0x60, .rts, .imp⟩
  | .sec => ⟨0x38, .sec, .imp⟩
  | .sed => ⟨0xF8, .sed, .imp⟩
  | .sei => ⟨0x78, .sei, .imp⟩
  | .clc => ⟨0x18, .clc, .imp⟩
  | .cld => ⟨0xD8, .cld, .imp⟩
  | .cli => ⟨0x58, .cli, .imp⟩
  | .clv => ⟨0xB8, .clv, .imp⟩
  | .nop => ⟨0xEA, .nop, .imp⟩
  | .brk => ⟨0x00, .brk, .imp⟩
  | .rti => ⟨0x40, .rti, .imp⟩

/-- The opcode byte of an instruction (30_encoding.md R127). -/
def Instr.opcode (i : Instr) : Byte := i.view.opcode

/-- The mnemonic of an instruction (30_encoding.md R127). -/
def Instr.mnemonic (i : Instr) : Mnemonic := i.view.mnemonic

/-- The mode and operand of an instruction (30_encoding.md R122). -/
def Instr.operand (i : Instr) : Operand := i.view.operand

/-- The operand bytes of a memory mode as R121 lays them out: a word low byte first. -/
def MemMode.bytes : MemMode → List Byte
  | .zp z | .zpx z | .zpy z | .indx z | .indy z => [z]
  | .abs w | .absx w | .absy w => [lowByte w, highByte w]

/-- The operand bytes of 30_encoding.md R121. -/
def Operand.bytes : Operand → List Byte
  | .imp | .acc => []
  | .imm v => [v]
  | .rel d => [d]
  | .mem m => m.bytes
  | .ind w => [lowByte w, highByte w]

/-- The encoder: the opcode byte and the operand bytes (30_encoding.md R121, R127). -/
def encode (i : Instr) : List Byte := i.opcode :: i.operand.bytes

/-- The length of an instruction in bytes (30_encoding.md R120). -/
def Instr.length (i : Instr) : Nat := 1 + i.operand.bytes.length

/-- The fixed cycle cost of an opcode in 30_encoding.md R127 (R134); an unmapped byte never completes and has none. -/
def tableCycles (op : Byte) : Cycles := ((rowOf op).map Row.cycles).getD 0

/-- The three bytes of a word of the opcode table, the first at the lowest address; every bit from `nbits` up is 0. -/
def tableWordBytes (nbits w : Nat) : List Byte :=
  let v := w % 2 ^ nbits
  [BitVec.ofNat 8 v, BitVec.ofNat 8 (v / 256), BitVec.ofNat 8 (v / 65536)]

/-- The instruction the decoder reads from a word of spec/opcode_table.json. The table's BRK and RTI rows are read under
the condition those rows carry, `ENABLE_BRK_RTI = true` (log entry 11). -/
def decodeTableWord (nbits w : Nat) : Option Instr :=
  match decode true (tableWordBytes nbits w) with
  | .ok (i, _) => some i
  | .error _ => none

/-! The assembler notation of 30_encoding.md R132. -/

/-- A mnemonic in upper case (30_encoding.md R132). -/
def Mnemonic.text : Mnemonic → String
  | .lda => "LDA" | .ldx => "LDX" | .ldy => "LDY" | .sta => "STA" | .stx => "STX" | .sty => "STY"
  | .adc => "ADC" | .sbc => "SBC" | .inc => "INC" | .dec => "DEC" | .inx => "INX" | .iny => "INY"
  | .dex => "DEX" | .dey => "DEY" | .asl => "ASL" | .lsr => "LSR" | .rol => "ROL" | .ror => "ROR"
  | .and => "AND" | .ora => "ORA" | .eor => "EOR" | .cmp => "CMP" | .cpx => "CPX" | .cpy => "CPY"
  | .bit => "BIT" | .bpl => "BPL" | .bmi => "BMI" | .bvc => "BVC" | .bvs => "BVS" | .bcc => "BCC"
  | .bcs => "BCS" | .bne => "BNE" | .beq => "BEQ" | .tax => "TAX" | .txa => "TXA" | .tay => "TAY"
  | .tya => "TYA" | .tsx => "TSX" | .txs => "TXS" | .pha => "PHA" | .php => "PHP" | .pla => "PLA"
  | .plp => "PLP" | .jmp => "JMP" | .jsr => "JSR" | .rts => "RTS" | .sec => "SEC" | .sed => "SED"
  | .sei => "SEI" | .clc => "CLC" | .cld => "CLD" | .cli => "CLI" | .clv => "CLV" | .nop => "NOP"
  | .brk => "BRK" | .rti => "RTI"

/-- One hexadecimal digit. -/
def hexDigit (n : Nat) : Char :=
  if n < 10 then Char.ofNat (48 + n) else Char.ofNat (55 + n)

/-- `$nn` of 30_encoding.md R132. -/
def hexByte (b : Byte) : String :=
  "$" ++ String.ofList [hexDigit (b.toNat / 16), hexDigit (b.toNat % 16)]

/-- `$nnnn` of 30_encoding.md R132. -/
def hexWord (w : Word) : String :=
  "$" ++ String.ofList [hexDigit (w.toNat / 4096), hexDigit (w.toNat / 256 % 16), hexDigit (w.toNat / 16 % 16),
    hexDigit (w.toNat % 16)]

/-- The operand syntax column of 30_encoding.md R122 for the memory modes. -/
def MemMode.text : MemMode → String
  | .zp z => hexByte z
  | .zpx z => hexByte z ++ ",X"
  | .zpy z => hexByte z ++ ",Y"
  | .abs w => hexWord w
  | .absx w => hexWord w ++ ",X"
  | .absy w => hexWord w ++ ",Y"
  | .indx z => "(" ++ hexByte z ++ ",X)"
  | .indy z => "(" ++ hexByte z ++ "),Y"

/-- The target of a branch instruction at `addr` with displacement `d` (30_encoding.md R122, mode `rel`). -/
def branchTarget (addr : Word) (d : Byte) : Word := addr + 2 + sext d

/-- The assembler notation of the instruction at `addr` (30_encoding.md R122 and R132): a branch operand is the target. -/
def assemblyText (addr : Word) (i : Instr) : String :=
  match i.operand with
  | .imp => i.mnemonic.text
  | .acc => i.mnemonic.text ++ " A"
  | .imm v => i.mnemonic.text ++ " #" ++ hexByte v
  | .mem m => i.mnemonic.text ++ " " ++ m.text
  | .ind w => i.mnemonic.text ++ " (" ++ hexWord w ++ ")"
  | .rel d => i.mnemonic.text ++ " " ++ hexWord (branchTarget addr d)

/-- The displacement the assembler encodes for a branch at `addr` (30_encoding.md R132):
`b1 = (target - (addr + 2)) mod 256`, and it requires `-128 <= target - (addr + 2) <= 127`. -/
def assembleBranch (addr target : Word) : Option Byte :=
  let d : Int := (target.toNat : Int) - ((addr.toNat : Int) + 2)
  if -128 ≤ d ∧ d ≤ 127 then some (BitVec.ofInt 8 d) else none

/-- The instruction a row's format makes of an operand, if the operand is of that format. -/
def Form.withOperand (f : Form) (o : Operand) : Option Instr :=
  match f, o.bytes with
  | .f1 i, [] => some i
  | .f2 mk, [b1] => some (mk b1)
  | .f3 mk, [lo, hi] => some (mk (joinBytes hi lo))
  | _, _ => none

/-- The instruction with a given mnemonic, mode and operand, if the table has one (30_encoding.md R127, R132). -/
def assemble (mn : Mnemonic) (o : Operand) : Option Instr :=
  opcodeTable.findSome? fun r =>
    match r.form.withOperand o with
    | some i => if i.mnemonic = mn ∧ i.operand = o then some i else none
    | none => none

/-- The mode the assembler picks by itself (30_encoding.md R132): "Where an operand fits in 8 bits and both `zp` and
`abs` forms exist, the assembler picks the zero-page form"; the indexed pairs likewise. -/
def zeroPageChoice : Operand → Option Operand
  | .mem (.abs w) => if highByte w = 0 then some (.mem (.zp (lowByte w))) else none
  | .mem (.absx w) => if highByte w = 0 then some (.mem (.zpx (lowByte w))) else none
  | .mem (.absy w) => if highByte w = 0 then some (.mem (.zpy (lowByte w))) else none
  | _ => none

/-- Assembly of a mnemonic and operand with the assembler's own choice of the zero-page form (30_encoding.md R132). -/
def assembleDefault (mn : Mnemonic) (o : Operand) : Option Instr :=
  match (zeroPageChoice o).bind (assemble mn) with
  | some i => some i
  | none => assemble mn o

end Sys2Proof
end

