-- ==== Sys2Proof/Machine/State.lean ====
section
/-! DEFINITION. The state of the Nibble CORE (10_state.md), the reasons a step can stop, and the state right after reset. -/

namespace Sys2Proof.Machine

/-- The identity of a watch handler (10_state.md R43): one of the PIA's four (60_exceptions.md R411), or a handler the
host registered, by its number. -/
inductive Handler where
  | kbdRead
  | kbdcrWrite
  | dspWrite
  | dspcrWrite
  | ext (h : Nat)
deriving DecidableEq, Repr

/-- The kinds of instruction fault of 60_exceptions.md R400 that the trace records: named, not numbered (D34). -/
inductive FaultKind where
  | unimplementedOpcode
  | undefinedRegisterRead
deriving DecidableEq, Repr

/-- The events of 10_state.md R47. A Fault event of `undefinedRegisterRead` raised by reading an unwritten PC has neither
an opcode nor an address to record; DESIGN CHOICE (log entry 4): it records `none`. -/
inductive Event where
  | outputChar (c : Byte)
  | watchFired (h : Nat) (dir : Dir) (addr : Word) (value : Byte)
  | fault (kind : FaultKind) (op : Option Byte) (pc : Option Word)
deriving DecidableEq, Repr

/-- The three PIA latches of 10_state.md R45. -/
structure Latches where
  inputEnabled : Bool
  outputEnabled : Bool
  inputAvailable : Bool
deriving DecidableEq, Repr

/-- The registers that 10_state.md R50 leaves unwritten at construction. -/
inductive Reg where
  | a
  | x
  | y
  | sp
  | pc
  | c
  | z
  | i
  | d
  | v
  | n
  | cycles
deriving DecidableEq, Repr

/-- Which registers hold a value: one mark each, false for the unwritten value of 00_scope.md R6. -/
structure Written where
  a : Bool
  x : Bool
  y : Bool
  sp : Bool
  pc : Bool
  c : Bool
  z : Bool
  i : Bool
  d : Bool
  v : Bool
  n : Bool
  cycles : Bool
deriving DecidableEq, Repr

/-- The same mark for every register: false at construction (10_state.md R50), true after CPU `reset()` (R51). -/
def Written.every (b : Bool) : Written := ⟨b, b, b, b, b, b, b, b, b, b, b, b⟩

/-- Everything 10_state.md gives the block, its parameters (00_scope.md R3), and one field of the model's own. -/
structure State where
  /-- The machine's parameters (00_scope.md R3), never changed by a step. -/
  cfg : Config
  /-- Accumulator (R30). -/
  a : Byte
  /-- Index register (R31). -/
  x : Byte
  /-- Index register (R32). -/
  y : Byte
  /-- Stack pointer (R34). -/
  sp : Byte
  /-- Program counter (R35). -/
  pc : Word
  /-- The six flags (R36). -/
  flags : Flags
  /-- Cycle counter (R40). -/
  cycles : Cycles
  /-- Whether the scheduler may start another instruction (R41). -/
  running : Bool
  /-- The bus array (R42), in canonical form: an unlisted index holds 0x00 (R50, R85). -/
  mem : List Host.Cell
  /-- Read handlers by address, each list in registration order (R43); an unlisted address has none. -/
  readWatch : List (Nat × List Handler)
  /-- Write handlers by address (R43). -/
  writeWatch : List (Nat × List Handler)
  /-- Watch suppression (R44). -/
  suppress : Bool
  /-- The PIA latches (R45). -/
  latches : Latches
  /-- The event trace, oldest first (R47). -/
  trace : List Event
  /-- Which registers hold values and which are still unwritten (R50; 00_scope.md R6; log entry 2). -/
  written : Written
  /-- The refusal mark of 60_exceptions.md R405. -/
  refusalMark : Bool
  /-- The model's own: the handlers of the access under way nest without end, so it never returns (log entry 5). -/
  diverged : Bool
deriving DecidableEq, Repr

/-- Why a step can stop with no next state. The spec's own faults (60_exceptions.md R400) are next states. -/
inductive Fault where
  /-- Raised by a step in which the dispatch of 20_memory.md R78 never returns, its handlers nesting without end. Safe: such
  a step has no end in the spec either (log entry 5). -/
  | handlersNeverReturn
deriving DecidableEq, Repr

/-- Why a step can be refused. -/
inductive Refusal where
  /-- Raised by `exec` for an instruction that has no meaning yet. Safe. No arm raises it. -/
  | notModelled (mnemonic : String)
deriving DecidableEq, Repr

/-- The machine right after the power-on sequence of 70_reset_and_hazards.md R461 with nothing loaded: construction (R50),
CPU `reset()` (R460) and PIA `reset()` (R463), each field as the table of 10_state.md R51 has it. PC is the word at the reset
vector, 0x0000 in an empty array. `running` is false: no reset changes it (R51), `run()` sets it. -/
def State.reset : State where
  cfg := Config.nibble
  a := 0x00
  x := 0x00
  y := 0x00
  sp := 0xFD
  pc := 0x0000
  flags := { c := false, z := false, i := true, d := false, v := false, n := false }
  cycles := 0
  running := false
  mem := []
  readWatch := [(0xD010, [.kbdRead])]
  writeWatch := [(0xD011, [.kbdcrWrite]), (0xD012, [.dspWrite]), (0xD013, [.dspcrWrite])]
  suppress := false
  latches := { inputEnabled := false, outputEnabled := false, inputAvailable := false }
  trace := []
  written := .every true
  refusalMark := false
  diverged := false

end Sys2Proof.Machine
end

