-- ==== Sys2Proof/Machine/Flags.lean ====
section
/-! DEFINITION. The status byte (10_state.md R37) and every flag computation of the instruction rules: `setNZ` (00_scope.md R8),
the ALU (41_arithmetic.md), increments (42), shifts (43), logic, comparison and BIT (44). Each is a function of operands and
flags; the instruction's meaning stores what it answers. -/

namespace Sys2Proof.Machine

/-- `setNZ(v8)` of 00_scope.md R8: `N <- v8[7]; Z <- (v8 == 0)`. -/
def setNZ (v : Byte) (f : Flags) : Flags := { f with n := v.msb, z := v == 0 }

/-- `PackP()` of 10_state.md R37: `N<<7 | V<<6 | PHP_BITS54<<4 | D<<3 | I<<2 | Z<<1 | C`. -/
def packP (bits54 : BitVec 2) (f : Flags) : Byte :=
  BitVec.ofBool f.n ++ BitVec.ofBool f.v ++ bits54 ++ BitVec.ofBool f.d ++ BitVec.ofBool f.i ++ BitVec.ofBool f.z ++
    BitVec.ofBool f.c

/-- `UnpackP(p8)` of 10_state.md R37; bits 5 and 4 are ignored. -/
def unpackP (p : Byte) : Flags :=
  { n := p.getLsbD 7, v := p.getLsbD 6, d := p.getLsbD 3, i := p.getLsbD 2, z := p.getLsbD 1, c := p.getLsbD 0 }

/-- The value of a status byte BRK pushes (47_control_flags.md R361): "bits 5 and 4 set in the pushed copy". -/
def packBreak (bits54 : BitVec 2) (f : Flags) : Byte := packP bits54 f ||| 0x30

/-! The ALU of 41_arithmetic.md. -/

/-- `AddBin(a8, b8, c1) -> (r8, cOut, vOut)` of 41_arithmetic.md R220. -/
def addBin (a b : Byte) (c : Bool) : Byte × Bool × Bool :=
  let s := a.toNat + b.toNat + bitNat c
  let r := BitVec.ofNat 8 s
  (r, decide (s > 0xFF), (a ^^^ r) &&& (b ^^^ r) &&& 0x80 != 0)

/-- The sum of the low digits of a decimal addition, with its carry in bit 4 (41_arithmetic.md R221, `al`). -/
def decimalLow (a b : Byte) (c : Bool) : Nat :=
  let al := (a &&& 0x0F).toNat + (b &&& 0x0F).toNat + bitNat c
  if al ≥ 0x0A then (al + 0x06) % 16 + 0x10 else al

/-- The result byte, carry, zero, overflow and sign of a decimal addition, as `AddDec` of 41_arithmetic.md R221 answers
them: Z from the binary sum, N and V from the intermediate, C from the adjusted sum. -/
def addDec (a b : Byte) (c : Bool) : Byte × Bool × Bool × Bool × Bool :=
  let zOut := (addBin a b c).1 == 0
  let s := (a &&& 0xF0).toNat + (b &&& 0xF0).toNat + decimalLow a b c
  let mid := BitVec.ofNat 8 s
  let s' := if s ≥ 0xA0 then s + 0x60 else s
  (BitVec.ofNat 8 s', decide (s' ≥ 0x100), zOut, (a ^^^ mid) &&& (b ^^^ mid) &&& 0x80 != 0, mid.msb)

/-- The difference of the low digits of a decimal subtraction (41_arithmetic.md R222, `al`); `%` of an `Int` by 16 is
`& 0x0F` on the two's-complement integer. -/
def decimalBorrowLow (a b : Byte) (c : Bool) : Int :=
  let al : Int := (a &&& 0x0F).toNat - (b &&& 0x0F).toNat + bitNat c - 1
  if al < 0 then (al - 0x06) % 16 - 0x10 else al

/-- `SubDec(a8, b8, c1) -> r8` of 41_arithmetic.md R222. -/
def subDec (a b : Byte) (c : Bool) : Byte :=
  let s : Int := (a &&& 0xF0).toNat - (b &&& 0xF0).toNat + decimalBorrowLow a b c
  BitVec.ofInt 8 (if s < 0 then s - 0x60 else s)

/-- ADC of 41_arithmetic.md R223: the new accumulator and flags. -/
def adcAlu (a m : Byte) (f : Flags) : Byte × Flags :=
  if f.d then
    let (r, c, z, v, n) := addDec a m f.c
    (r, { f with c := c, z := z, v := v, n := n })
  else
    let (r, c, v) := addBin a m f.c
    (r, setNZ r { f with c := c, v := v })

/-- SBC of 41_arithmetic.md R224: the flags always from the binary form, the accumulator decimal when D is set. -/
def sbcAlu (a m : Byte) (f : Flags) : Byte × Flags :=
  let (rb, c, v) := addBin a (~~~ m) f.c
  (if f.d then subDec a m f.c else rb, setNZ rb { f with c := c, v := v })

/-! Shifts and rotates of 43_shift_rotate.md: the result and the flags, from the operand and the flags. -/

/-- ASL of 43_shift_rotate.md R260: `r = (v << 1) & 0xFF; C <- v[7]; setNZ(r)`. -/
def aslAlu (v : Byte) (f : Flags) : Byte × Flags :=
  let r := v <<< 1
  (r, setNZ r { f with c := v.getLsbD 7 })

/-- LSR of 43_shift_rotate.md R261: `r = v >> 1; C <- v[0]; setNZ(r)`. -/
def lsrAlu (v : Byte) (f : Flags) : Byte × Flags :=
  let r := v >>> 1
  (r, setNZ r { f with c := v.getLsbD 0 })

/-- ROL of 43_shift_rotate.md R262: `r = ((v << 1) | C) & 0xFF; C <- v[7]; setNZ(r)`, C read before it is written. -/
def rolAlu (v : Byte) (f : Flags) : Byte × Flags :=
  let r := v <<< 1 ||| (BitVec.ofBool f.c).setWidth 8
  (r, setNZ r { f with c := v.getLsbD 7 })

/-- ROR of 43_shift_rotate.md R263: `r = (v >> 1) | (C << 7); C <- v[0]; setNZ(r)`, C read before it is written. -/
def rorAlu (v : Byte) (f : Flags) : Byte × Flags :=
  let r := v >>> 1 ||| (BitVec.ofBool f.c).setWidth 8 <<< 7
  (r, setNZ r { f with c := v.getLsbD 0 })

/-- INC of 42_incdec.md R240 (and INX, INY): `r = (M + 1) mod 256; setNZ(r)`. -/
def incAlu (v : Byte) (f : Flags) : Byte × Flags := (v + 1, setNZ (v + 1) f)

/-- DEC of 42_incdec.md R241 (and DEX, DEY): `r = (M - 1) mod 256; setNZ(r)`. -/
def decAlu (v : Byte) (f : Flags) : Byte × Flags := (v - 1, setNZ (v - 1) f)

/-- AND of 44_logic_compare.md R280: `A <- A & M; setNZ(A)`. -/
def andAlu (a m : Byte) (f : Flags) : Byte × Flags := (a &&& m, setNZ (a &&& m) f)

/-- ORA of 44_logic_compare.md R281: `A <- A | M; setNZ(A)`. -/
def oraAlu (a m : Byte) (f : Flags) : Byte × Flags := (a ||| m, setNZ (a ||| m) f)

/-- EOR of 44_logic_compare.md R282: `A <- A ^ M; setNZ(A)`. -/
def eorAlu (a m : Byte) (f : Flags) : Byte × Flags := (a ^^^ m, setNZ (a ^^^ m) f)

/-- `Compare(r8, M8)` of 44_logic_compare.md R283: C unsigned greater or equal, Z equal, N bit 7 of the difference. -/
def compareAlu (r m : Byte) (f : Flags) : Flags :=
  { f with c := decide (r.toNat ≥ m.toNat), z := r == m, n := (r - m).msb }

/-- BIT of 44_logic_compare.md R287: Z from `A & M`, N and V from bits 7 and 6 of M. -/
def bitAlu (a m : Byte) (f : Flags) : Flags :=
  { f with z := a &&& m == 0, n := m.getLsbD 7, v := m.getLsbD 6 }

end Sys2Proof.Machine
end

