-- ==== Sys2Proof/Machine/Memory.lean ====
section
/-! DEFINITION. Finite maps in canonical form: the representation of the bus array (10_state.md R42) and of the two watch maps
(R43). Keys rise strictly and no entry holds what an unlisted key reads as, so equal maps are equal data. -/

namespace Sys2Proof.Machine

/-- The value at a key; `d` where the key is not listed. -/
def lookupAt {β : Type} (d : β) : List (Nat × β) → Nat → β
  | [], _ => d
  | (k', v) :: l, k => if k = k' then v else lookupAt d l k

/-- The map without a key. -/
def removeAt {β : Type} (k : Nat) : List (Nat × β) → List (Nat × β)
  | [] => []
  | (k', v') :: l => if k = k' then removeAt k l else (k', v') :: removeAt k l

/-- The map with a new entry in its place in the order of keys. -/
def insertAt {β : Type} (k : Nat) (v : β) : List (Nat × β) → List (Nat × β)
  | [] => [(k, v)]
  | (k', v') :: l => if k < k' then (k, v) :: (k', v') :: l else (k', v') :: insertAt k v l

/-- The map with `v` at a key: the old entry goes, and a new one stands in its place unless `v` is `d`. -/
def updateAt {β : Type} [DecidableEq β] (d : β) (l : List (Nat × β)) (k : Nat) (v : β) : List (Nat × β) :=
  if v = d then removeAt k l else insertAt k v (removeAt k l)

/-- The canonical form of a map whose unlisted keys read as `d`. -/
abbrev Canonical {β : Type} (d : β) (l : List (Nat × β)) : Prop :=
  l.Pairwise (fun p q => p.1 < q.1) ∧ ∀ p ∈ l, p.2 ≠ d

/-- The canonical form of the bus array: an unlisted byte is 0x00 (R50 "`mem` is all 0x00"; R86 after bus `reset()`). -/
abbrev Memory.wf (m : List Host.Cell) : Prop := Canonical (0 : Byte) m

/-- The canonical form of a watch map: an unlisted address has no handler (R43). -/
abbrev WatchMap.wf (m : List (Nat × List Handler)) : Prop := Canonical [] m

end Sys2Proof.Machine
end

