-- ==== Sys2Proof/Machine/Ops.lean ====
section
/-! DEFINITION. The named operations of the machine: one update per field of State, the bus array (20_memory.md R71), the PIA
handlers (60_exceptions.md R410 to R416), the watchpoint dispatcher (R77 to R80), the bus primitives (R72 to R76), the stack
(10_state.md R38, R39), taking a fault (60_exceptions.md R401, R404), and the software break with its return
(47_control_flags.md R361, R362). -/

namespace Sys2Proof.Machine

/-! One update per field of State. -/

/-- `A <- v`. -/
def State.setA (v : Byte) (s : State) : State := { s with a := v }
/-- `X <- v`. -/
def State.setX (v : Byte) (s : State) : State := { s with x := v }
/-- `Y <- v`. -/
def State.setY (v : Byte) (s : State) : State := { s with y := v }
/-- `SP <- v`. -/
def State.setSp (v : Byte) (s : State) : State := { s with sp := v }
/-- `PC <- v`. -/
def State.setPc (v : Word) (s : State) : State := { s with pc := v }
/-- The flags all at once; a rule that writes some gives the others back. -/
def State.setFlags (f : Flags) (s : State) : State := { s with flags := f }
/-- `cycles <- v`. -/
def State.setCycles (v : Cycles) (s : State) : State := { s with cycles := v }
/-- `running <- b`. -/
def State.setRunning (b : Bool) (s : State) : State := { s with running := b }
/-- The bus array as a whole. -/
def State.setMem (m : List Host.Cell) (s : State) : State := { s with mem := m }
/-- The read watch map as a whole. -/
def State.setReadWatch (m : List (Nat × List Handler)) (s : State) : State := { s with readWatch := m }
/-- The write watch map as a whole. -/
def State.setWriteWatch (m : List (Nat × List Handler)) (s : State) : State := { s with writeWatch := m }
/-- `suppress <- b`. -/
def State.setSuppress (b : Bool) (s : State) : State := { s with suppress := b }
/-- The PIA latches as a whole. -/
def State.setLatches (l : Latches) (s : State) : State := { s with latches := l }
/-- `emit E` of 00_scope.md R8: the event is appended to the trace (10_state.md R47). -/
def State.emit (e : Event) (s : State) : State := { s with trace := s.trace ++ [e] }
/-- The written marks as a whole (00_scope.md R6). -/
def State.setWritten (w : Written) (s : State) : State := { s with written := w }
/-- The refusal mark, kept for the whole run (60_exceptions.md R405). -/
def State.markRefused (s : State) : State := { s with refusalMark := true }
/-- The model's own mark of an access that never returns (log entry 5). -/
def State.markDiverged (s : State) : State := { s with diverged := true }

/-! The bus array (20_memory.md R71): a 16-bit address selects `mem[a mod S]`. -/

/-- The array index of an address (20_memory.md R71). -/
def State.index (s : State) (a : Word) : Nat := a.toNat % s.cfg.memSize

/-- The byte an address selects, with no dispatch: `mem[a mod S]`. -/
def State.peek (s : State) (a : Word) : Byte := lookupAt 0 s.mem (s.index a)

/-- `mem[a mod S] <- v`, with no dispatch. -/
def State.poke (a : Word) (v : Byte) (s : State) : State := s.setMem (updateAt 0 s.mem (s.index a) v)

/-! The PIA register addresses (10_state.md R46). -/

/-- KBD, `PIA_BASE + 0`. -/
def State.kbd (s : State) : Word := s.cfg.piaBase
/-- KBDCR, `PIA_BASE + 1`. -/
def State.kbdcr (s : State) : Word := s.cfg.piaBase + 1
/-- DSP, `PIA_BASE + 2`. -/
def State.dsp (s : State) : Word := s.cfg.piaBase + 2
/-- DSPCR, `PIA_BASE + 3`. -/
def State.dspcr (s : State) : Word := s.cfg.piaBase + 3

/-! The PIA's handlers. Their own bus writes run under suppression (60_exceptions.md R412, R413, R415), where a write is the
array write alone (20_memory.md R73, R76), so they are `poke`s. -/

/-- `kbdRead` of 60_exceptions.md R412. -/
def kbdRead (s : State) : State :=
  let s := s.setLatches { s.latches with inputAvailable := false }
  s.poke s.kbdcr (s.peek s.kbdcr &&& 0x7F)

/-- `kbdcrWrite` of 60_exceptions.md R413: bit 7 of KBDCR is read-only to the CPU. -/
def kbdcrWrite (v : Byte) (s : State) : State :=
  let s := s.setLatches { s.latches with inputEnabled := true }
  s.poke s.kbdcr (v &&& 0x7F ||| if s.latches.inputAvailable then 0x80 else 0)

/-- `dspWrite` of 60_exceptions.md R415: the byte is delivered as written, then bit 7 of DSP is cleared. -/
def dspWrite (v : Byte) (s : State) : State :=
  let s := if s.latches.outputEnabled then s.emit (.outputChar v) else s
  s.poke s.dsp (v &&& 0x7F)

/-- `dspcrWrite` of 60_exceptions.md R416. -/
def dspcrWrite (s : State) : State := s.setLatches { s.latches with outputEnabled := true }

/-! The watchpoint dispatcher (20_memory.md R77 to R80). -/

/-- The handlers at an address and direction, keyed by the 16-bit address as issued (20_memory.md R80). -/
def State.watchers (s : State) (dir : Dir) (a : Word) : List Handler :=
  match dir with
  | .read => lookupAt [] s.readWatch a.toNat
  | .write => lookupAt [] s.writeWatch a.toNat

/-- `addReadWatch(a16, h)` of 20_memory.md R77: h goes to the end of `readWatch[a]`. -/
def State.addReadWatch (a : Word) (h : Handler) (s : State) : State :=
  s.setReadWatch (updateAt [] s.readWatch a.toNat (s.watchers .read a ++ [h]))

/-- `addWriteWatch(a16, h)` of 20_memory.md R77. -/
def State.addWriteWatch (a : Word) (h : Handler) (s : State) : State :=
  s.setWriteWatch (updateAt [] s.writeWatch a.toNat (s.watchers .write a ++ [h]))

/-- The byte a handler's write stores, given the value the handler was invoked with. -/
def evalByteArg (seen : Byte) : ByteArg → Byte
  | .lit b => b
  | .seen offset => seen + offset

/-- Whether a rule of the `ExtHandler` table is about this invocation. -/
def ruleApplies (r : ExtRule) (h : Nat) (dir : Dir) (a : Word) (v : Byte) : Bool :=
  r.handler == h && (r.dir.all (· == dir)) && (r.addr.all (· == a)) && (r.value.all (· == v))

/-- `ExtHandler(h, dir, a, v)` of 20_memory.md R79: the first rule that applies; with none, "the empty sequence: the handler
only records". -/
def extProg (cfg : Config) (h : Nat) (dir : Dir) (a : Word) (v : Byte) : HandlerProg :=
  match cfg.extHandler.find? (fun r => ruleApplies r h dir a v) with
  | some r => r.prog
  | none => .done

/-- The dispatch that follows an access: none while suppression is on (20_memory.md R72, R73). `disp` runs the handlers. -/
def afterAccess (disp : Dir → Word → Byte → State → State) (dir : Dir) (a : Word) (v : Byte) (s : State) : State :=
  if s.suppress then s else disp dir a v s

/-- The host actions of a handler invoked with value `v`, in order (20_memory.md R79). `disp` dispatches the handler's own
accesses, depth-first (R78, D38). -/
def runProg (disp : Dir → Word → Byte → State → State) (v : Byte) : HandlerProg → State → State
  | .done, s => s
  | .stop rest, s => runProg disp v rest (s.setRunning false)
  | .memRead a rest, s => runProg disp v rest (afterAccess disp .read a (s.peek a) s)
  | .memWrite a e rest, s =>
    runProg disp v rest (afterAccess disp .write a (evalByteArg v e) (s.poke a (evalByteArg v e)))
  | .suppressed body rest, s =>
    runProg disp v rest ((runProg disp v body (s.setSuppress true)).setSuppress s.suppress)
  | .addReadWatch a h rest, s => runProg disp v rest (s.addReadWatch a (.ext h))
  | .addWriteWatch a h rest, s => runProg disp v rest (s.addWriteWatch a (.ext h))
  | .refusedCall _ rest, s => runProg disp v rest s.markRefused

/-- `Invoke(h, dir, a, v)` of 20_memory.md R79: a PIA handler runs its rule and records nothing; a host handler first emits
`WatchFired`, then performs `ExtHandler`. -/
def invoke (disp : Dir → Word → Byte → State → State) (dir : Dir) (a : Word) (v : Byte) (s : State) : Handler → State
  | .kbdRead => kbdRead s
  | .kbdcrWrite => kbdcrWrite v s
  | .dspWrite => dspWrite v s
  | .dspcrWrite => dspcrWrite s
  | .ext h => runProg disp v (extProg s.cfg h dir a v) (s.emit (.watchFired h dir a v))

/-- `Dispatch(map, dir, a, v)` of 20_memory.md R78 for handlers that nest less deep than the first argument: the handlers
registered at that address and direction when the dispatch starts, in registration order, each once. A nest that reaches
the depth is marked, and a deeper bound is tried (`runHandlers`). -/
def dispatch : Nat → Dir → Word → Byte → State → State
  | 0, _, _, _, s => s.markDiverged
  | depth + 1, dir, a, v, s => (s.watchers dir a).foldl (invoke (dispatch depth) dir a v) s

/-- The first result that has not diverged, of bounds from `depth` up; none if every bound's result has. -/
def searchDepth (result : Nat → State) (depth : Nat) : Option State :=
  if (result depth).diverged then searchDepth result (depth + 1) else some (result depth)
partial_fixpoint

/-- The depth tried first. It bounds nothing: `runHandlers` goes on to any depth. -/
def firstDepth : Nat := 65536

/-- `Dispatch(map, dir, a, v)` of 20_memory.md R78, however deep handlers nest: the result at any depth that is enough (every
such depth has the same, `dispatch_mono`). Where none is, the dispatch never returns, and the state is marked so (log entry
5). -/
def runHandlers (dir : Dir) (a : Word) (v : Byte) (s : State) : State :=
  if s.diverged then s
  else if (dispatch firstDepth dir a v s).diverged then
    (searchDepth (fun depth => dispatch depth dir a v s) firstDepth).getD s.markDiverged
  else dispatch firstDepth dir a v s

/-! The bus primitives of 00_scope.md R7. -/

/-- The state after `MemRead(a, 1)` (20_memory.md R72). The value read is `s.peek a`: "the byte as it stood before any
handler ran". -/
def State.afterRead (s : State) (a : Word) : State := afterAccess runHandlers .read a (s.peek a) s

/-- `MemRead(a, 1)` of 20_memory.md R72. -/
def State.memRead (s : State) (a : Word) : Byte × State := (s.peek a, s.afterRead a)

/-- `MemWrite(a, 1, v)` of 20_memory.md R73: the handlers run after the byte is stored. -/
def State.memWrite (s : State) (a : Word) (v : Byte) : State :=
  afterAccess runHandlers .write a v (s.poke a v)

/-- Two dispatched byte reads, the low byte at `lo` first, then the high byte at `hi`. -/
def State.readPair (s : State) (lo hi : Word) : Word × State :=
  let (l, s1) := s.memRead lo
  let (h, s2) := s1.memRead hi
  (joinBytes h l, s2)

/-- `MemRead(a, 2)` of 20_memory.md R74: the high byte is at `(a + 1) mod 2^16`. -/
def State.readShort (s : State) (a : Word) : Word × State := s.readPair a (a + 1)

/-- `MemReadZP(zp)` of 20_memory.md R75: the high byte is at `(zp + 1) mod 0x100`, "never from 0x0100". -/
def State.readShortZeroPage (s : State) (z : Byte) : Word × State := s.readPair (zext z) (zext (z + 1))

/-- `Suppressed { action }` of 20_memory.md R76: suppression on for the action, then the flag's previous value. -/
def State.suppressed (action : State → State) (s : State) : State :=
  (action (s.setSuppress true)).setSuppress s.suppress

/-! The stack (10_state.md R34, R38, R39). -/

/-- The stack slot SP designates: `0x0100 | SP` (10_state.md R34). -/
def stackAddr (sp : Byte) : Word := 0x0100 ||| zext sp

/-- `Push(v8)` of 10_state.md R38: write, then decrement. -/
def push (v : Byte) (s : State) : State :=
  let s1 := s.memWrite (stackAddr s.sp) v
  s1.setSp (s1.sp - 1)

/-- `Pull()` of 10_state.md R39: increment, then read. -/
def pull (s : State) : Byte × State :=
  let s1 := s.setSp (s.sp + 1)
  s1.memRead (stackAddr s1.sp)

/-- Pushes a 16-bit value, high byte first, so that the low byte ends at the lower address (20_memory.md R90). -/
def pushWord (w : Word) (s : State) : State := push (lowByte w) (push (highByte w) s)

/-- Pulls a 16-bit value, low byte first (20_memory.md R90, 47_control_flags.md R342). -/
def pullWord (s : State) : Word × State :=
  let (lo, s1) := pull s
  let (hi, s2) := pull s1
  (joinBytes hi lo, s2)

/-! Taking a fault, and completing an instruction. -/

/-- Taking `UnimplementedOpcode` (60_exceptions.md R401): `PC <- pc0`, `running <- false` and the Fault event. A, X, Y, SP, the
flags and cycles keep their values; handler effects of the opcode fetch stay. -/
def raiseUnimplemented (op : Byte) (pc0 : Word) (s : State) : State :=
  ((s.setPc pc0).setRunning false).emit (.fault .unimplementedOpcode (some op) (some pc0))

/-- Taking `UndefinedRegisterRead` (60_exceptions.md R404) at the state of the read: `running <- false` and the Fault event;
R404 writes nothing else. Where PC itself is unwritten (30_encoding.md R130, its first line) there is no opcode and no
address to record (log entry 4). -/
def raiseUndefinedRead (op : Option Byte) (pc0 : Option Word) (s : State) : State :=
  (s.setRunning false).emit (.fault .undefinedRegisterRead op pc0)

/-- The end of a step: the next state, or the model's fault if an access of the step never returned (log entry 5). -/
def finish (s : State) : Host.Outcome State Fault Refusal :=
  if s.diverged then .fault .handlersNeverReturn else .next s

/-- `CYCLE_COST[op]` of 00_scope.md R3: the table of 30_encoding.md R127, or its replacement (log entry 12). -/
def cycleCostOf (cfg : Config) (op : Byte) : Cycles :=
  match cfg.cycleCost.lookup op with
  | some c => c
  | none => tableCycles op

/-- The last line of `Step` in 30_encoding.md R130: `cycles <- (cycles + CYCLE_COST[op]) mod 2^64`, then the end of the
step. -/
def complete (op : Byte) (s : State) : Host.Outcome State Fault Refusal :=
  finish (s.setCycles (s.cycles + cycleCostOf s.cfg op))

/-! The software break and its return (47_control_flags.md R361, R362). -/

/-- The entry BRK takes when `ENABLE_BRK_RTI` is set (47_control_flags.md R361). PC is one past the opcode on entry; the
pushed return address skips the padding byte. -/
def enterBreak (s : State) : State :=
  let s1 := pushWord (s.pc + 1) s
  let s2 := push (packBreak s1.cfg.phpBits54 s1.flags) s1
  let s3 := s2.setFlags { s2.flags with i := true }
  let (target, s4) := s3.readShort 0xFFFE
  s4.setPc target

/-- The return RTI makes when `ENABLE_BRK_RTI` is set (47_control_flags.md R362): the flags, then PC, "no +1, unlike RTS". -/
def returnFromBreak (s : State) : State :=
  let (p, s1) := pull s
  let s2 := s1.setFlags (unpackP p)
  let (target, s3) := pullWord s2
  s3.setPc target

end Sys2Proof.Machine
end

