-- ==== Sys2Proof/Machine/Operands.lean ====
section
/-! DEFINITION. Effective addresses and operand access (30_encoding.md R122 to R124), every mode. -/

namespace Sys2Proof.Machine

/-- The effective address of a memory mode and the state after its pointer reads (30_encoding.md R122). Sums of the
zero-page modes stay in page zero, 16-bit sums wrap modulo 2^16. -/
def effectiveAddress (m : MemMode) (s : State) : Word × State :=
  match m with
  | .zp z => (zext z, s)
  | .zpx z => (zext (z + s.x), s)
  | .zpy z => (zext (z + s.y), s)
  | .abs w => (w, s)
  | .absx w => (w + zext s.x, s)
  | .absy w => (w + zext s.y, s)
  | .indx z => s.readShortZeroPage (z + s.x)
  | .indy z =>
    let (p, s1) := s.readShortZeroPage z
    (p + zext s1.y, s1)

/-- Where the high byte of the pointer of `JMP (w)` is: `w + 1`, or in the page of `w` under `JMP_IND_PAGE_WRAP`
(30_encoding.md R122, `ind`). -/
def indirectHigh (pageWrap : Bool) (w : Word) : Word :=
  if pageWrap then w &&& 0xFF00 ||| (w + 1) &&& 0x00FF else w + 1

/-- The target of `JMP (w)` and the state after its two pointer reads, low byte first (30_encoding.md R122, `ind`). -/
def indirectTarget (w : Word) (s : State) : Word × State :=
  s.readPair w (indirectHigh s.cfg.jmpIndPageWrap w)

/-- A reading instruction with a memory operand (30_encoding.md R123, R124): pointer reads, then one `MemRead(EA, 1)`, then
the instruction's own effect of the value M. -/
def withMem (m : MemMode) (effect : Byte → State → State) (s : State) : State :=
  let (ea, s1) := effectiveAddress m s
  let (v, s2) := s1.memRead ea
  effect v s2

/-- A storing instruction (30_encoding.md R123): "it does no read at EA". The value is read from the registers after the
pointer reads, which change no register. -/
def storeMem (m : MemMode) (value : State → Byte) (s : State) : State :=
  let (ea, s1) := effectiveAddress m s
  s1.memWrite ea (value s1)

/-- A read-modify-write instruction (30_encoding.md R124, 70_reset_and_hazards.md R471): the result is computed from the
value the read returned, whatever its handlers did to the byte. -/
def modifyMem (m : MemMode) (alu : Byte → Flags → Byte × Flags) (s : State) : State :=
  let (ea, s1) := effectiveAddress m s
  let (v, s2) := s1.memRead ea
  let (r, f) := alu v s2.flags
  (s2.memWrite ea r).setFlags f

/-- The accumulator form of a shift or rotate (43_shift_rotate.md, common operand handling). -/
def modifyAcc (alu : Byte → Flags → Byte × Flags) (s : State) : State :=
  let (r, f) := alu s.a s.flags
  (s.setA r).setFlags f

/-- An operation of the accumulator and M that writes the accumulator (41_arithmetic.md, 44_logic_compare.md). -/
def accumulate (alu : Byte → Byte → Flags → Byte × Flags) (m : Byte) (s : State) : State :=
  let (r, f) := alu s.a m s.flags
  (s.setA r).setFlags f

/-- The operand value M of 30_encoding.md R123 and the state after it is read: `b1` for `imm`, A for `acc`, the byte at EA
for a memory mode; the other modes have none. -/
def operandValue (o : Operand) (s : State) : Option (Byte × State) :=
  match o with
  | .imm v => some (v, s)
  | .acc => some (s.a, s)
  | .mem m =>
    let (ea, s1) := effectiveAddress m s
    some (s1.memRead ea)
  | .imp | .ind _ | .rel _ => none

end Sys2Proof.Machine
end

