-- ==== Sys2Proof/Machine/Arithmetic.lean ====
section
/-! DEFINITION. ADC and SBC (41_arithmetic.md): one meaning per instruction, over the state after the operand fetch. -/

namespace Sys2Proof.Machine

/-- ADC of 41_arithmetic.md R223. -/
def adc (m : Byte) (s : State) : State := accumulate adcAlu m s

/-- SBC of 41_arithmetic.md R224. -/
def sbc (m : Byte) (s : State) : State := accumulate sbcAlu m s

/-- ADC `imm`, 41_arithmetic.md R223. -/
def execAdcImm (v : Byte) (s : State) : Host.Outcome State Fault Refusal :=
  complete 0x69 (adc v s)

/-- ADC `zp`, 41_arithmetic.md R223. -/
def execAdcZp (z : Byte) (s : State) : Host.Outcome State Fault Refusal :=
  complete 0x65 (withMem (.zp z) adc s)

/-- ADC `zpx`, 41_arithmetic.md R223. -/
def execAdcZpx (z : Byte) (s : State) : Host.Outcome State Fault Refusal :=
  complete 0x75 (withMem (.zpx z) adc s)

/-- ADC `abs`, 41_arithmetic.md R223. -/
def execAdcAbs (w : Word) (s : State) : Host.Outcome State Fault Refusal :=
  complete 0x6D (withMem (.abs w) adc s)

/-- ADC `absx`, 41_arithmetic.md R223. -/
def execAdcAbsx (w : Word) (s : State) : Host.Outcome State Fault Refusal :=
  complete 0x7D (withMem (.absx w) adc s)

/-- ADC `absy`, 41_arithmetic.md R223. -/
def execAdcAbsy (w : Word) (s : State) : Host.Outcome State Fault Refusal :=
  complete 0x79 (withMem (.absy w) adc s)

/-- ADC `indx`, 41_arithmetic.md R223. -/
def execAdcIndx (z : Byte) (s : State) : Host.Outcome State Fault Refusal :=
  complete 0x61 (withMem (.indx z) adc s)

/-- ADC `indy`, 41_arithmetic.md R223. -/
def execAdcIndy (z : Byte) (s : State) : Host.Outcome State Fault Refusal :=
  complete 0x71 (withMem (.indy z) adc s)

/-- SBC `imm`, 41_arithmetic.md R224. -/
def execSbcImm (v : Byte) (s : State) : Host.Outcome State Fault Refusal :=
  complete 0xE9 (sbc v s)

/-- SBC `zp`, 41_arithmetic.md R224. -/
def execSbcZp (z : Byte) (s : State) : Host.Outcome State Fault Refusal :=
  complete 0xE5 (withMem (.zp z) sbc s)

/-- SBC `zpx`, 41_arithmetic.md R224. -/
def execSbcZpx (z : Byte) (s : State) : Host.Outcome State Fault Refusal :=
  complete 0xF5 (withMem (.zpx z) sbc s)

/-- SBC `abs`, 41_arithmetic.md R224. -/
def execSbcAbs (w : Word) (s : State) : Host.Outcome State Fault Refusal :=
  complete 0xED (withMem (.abs w) sbc s)

/-- SBC `absx`, 41_arithmetic.md R224. -/
def execSbcAbsx (w : Word) (s : State) : Host.Outcome State Fault Refusal :=
  complete 0xFD (withMem (.absx w) sbc s)

/-- SBC `absy`, 41_arithmetic.md R224. -/
def execSbcAbsy (w : Word) (s : State) : Host.Outcome State Fault Refusal :=
  complete 0xF9 (withMem (.absy w) sbc s)

/-- SBC `indx`, 41_arithmetic.md R224. -/
def execSbcIndx (z : Byte) (s : State) : Host.Outcome State Fault Refusal :=
  complete 0xE1 (withMem (.indx z) sbc s)

/-- SBC `indy`, 41_arithmetic.md R224. -/
def execSbcIndy (z : Byte) (s : State) : Host.Outcome State Fault Refusal :=
  complete 0xF1 (withMem (.indy z) sbc s)

end Sys2Proof.Machine
end

