-- ==== Sys2Proof/Machine/Branch.lean ====
section
/-! DEFINITION. Conditional branches (45_branch.md): one meaning per instruction, over the state after the operand fetch. -/

namespace Sys2Proof.Machine

/-- `Branch(cond)` of 45_branch.md R300. PC already holds the address of the instruction after the branch. -/
def branch (cond : Bool) (d : Byte) (s : State) : State := if cond then s.setPc (s.pc + sext d) else s

/-- BPL `rel`, 45_branch.md R301. -/
def execBpl (d : Byte) (s : State) : Host.Outcome State Fault Refusal :=
  complete 0x10 (branch (!s.flags.n) d s)

/-- BMI `rel`, 45_branch.md R302. -/
def execBmi (d : Byte) (s : State) : Host.Outcome State Fault Refusal :=
  complete 0x30 (branch s.flags.n d s)

/-- BVC `rel`, 45_branch.md R303. -/
def execBvc (d : Byte) (s : State) : Host.Outcome State Fault Refusal :=
  complete 0x50 (branch (!s.flags.v) d s)

/-- BVS `rel`, 45_branch.md R304. -/
def execBvs (d : Byte) (s : State) : Host.Outcome State Fault Refusal :=
  complete 0x70 (branch s.flags.v d s)

/-- BCC `rel`, 45_branch.md R305. -/
def execBcc (d : Byte) (s : State) : Host.Outcome State Fault Refusal :=
  complete 0x90 (branch (!s.flags.c) d s)

/-- BCS `rel`, 45_branch.md R306. -/
def execBcs (d : Byte) (s : State) : Host.Outcome State Fault Refusal :=
  complete 0xB0 (branch s.flags.c d s)

/-- BNE `rel`, 45_branch.md R307. -/
def execBne (d : Byte) (s : State) : Host.Outcome State Fault Refusal :=
  complete 0xD0 (branch (!s.flags.z) d s)

/-- BEQ `rel`, 45_branch.md R308. -/
def execBeq (d : Byte) (s : State) : Host.Outcome State Fault Refusal :=
  complete 0xF0 (branch s.flags.z d s)

end Sys2Proof.Machine
end

