-- ==== Sys2Proof/Machine/ControlFlags.lean ====
section
/-! DEFINITION. Jumps, calls and returns, flag instructions, NOP, BRK and RTI (47_control_flags.md): one meaning per instruction, over the state after the operand fetch. -/

namespace Sys2Proof.Machine

/-- JSR of 47_control_flags.md R341: PC is the address after the instruction, the pushed word is that of its last byte. -/
def callSubroutine (w : Word) (s : State) : State := (pushWord (s.pc - 1) s).setPc w

/-- RTS of 47_control_flags.md R342: the pulled word plus one. -/
def returnSubroutine (s : State) : State :=
  let (w, s1) := pullWord s
  s1.setPc (w + 1)

/-- The outcome of BRK or RTI under R361's and R362's first line: without `ENABLE_BRK_RTI`, `UnimplementedOpcode` at the
opcode's own address; with it, the effect. -/
def brkRti (op : Byte) (effect : State → State) (s : State) : Host.Outcome State Fault Refusal :=
  if s.cfg.enableBrkRti then complete op (effect s)
  else finish (raiseUnimplemented op (s.pc - 1) s)

/-- JMP `abs`, 47_control_flags.md R340. -/
def execJmpAbs (w : Word) (s : State) : Host.Outcome State Fault Refusal :=
  complete 0x4C (s.setPc w)

/-- JMP `ind`, 47_control_flags.md R340. -/
def execJmpInd (w : Word) (s : State) : Host.Outcome State Fault Refusal :=
  complete 0x6C (let (target, s1) := indirectTarget w s; s1.setPc target)

/-- JSR `abs`, 47_control_flags.md R341. -/
def execJsr (w : Word) (s : State) : Host.Outcome State Fault Refusal :=
  complete 0x20 (callSubroutine w s)

/-- RTS, 47_control_flags.md R342. -/
def execRts (s : State) : Host.Outcome State Fault Refusal :=
  complete 0x60 (returnSubroutine s)

/-- SEC, 47_control_flags.md R343. -/
def execSec (s : State) : Host.Outcome State Fault Refusal :=
  complete 0x38 (s.setFlags { s.flags with c := true })

/-- SED, 47_control_flags.md R344. -/
def execSed (s : State) : Host.Outcome State Fault Refusal :=
  complete 0xF8 (s.setFlags { s.flags with d := true })

/-- SEI, 47_control_flags.md R345. -/
def execSei (s : State) : Host.Outcome State Fault Refusal :=
  complete 0x78 (s.setFlags { s.flags with i := true })

/-- CLC, 47_control_flags.md R346. -/
def execClc (s : State) : Host.Outcome State Fault Refusal :=
  complete 0x18 (s.setFlags { s.flags with c := false })

/-- CLD, 47_control_flags.md R347. -/
def execCld (s : State) : Host.Outcome State Fault Refusal :=
  complete 0xD8 (s.setFlags { s.flags with d := false })

/-- CLI, 47_control_flags.md R348. -/
def execCli (s : State) : Host.Outcome State Fault Refusal :=
  complete 0x58 (s.setFlags { s.flags with i := false })

/-- CLV, 47_control_flags.md R349. -/
def execClv (s : State) : Host.Outcome State Fault Refusal :=
  complete 0xB8 (s.setFlags { s.flags with v := false })

/-- NOP, 47_control_flags.md R350. -/
def execNop (s : State) : Host.Outcome State Fault Refusal :=
  complete 0xEA s

/-- BRK, 47_control_flags.md R361. -/
def execBrk (s : State) : Host.Outcome State Fault Refusal :=
  brkRti 0x00 enterBreak s

/-- RTI, 47_control_flags.md R362. -/
def execRti (s : State) : Host.Outcome State Fault Refusal :=
  brkRti 0x40 returnFromBreak s

end Sys2Proof.Machine
end

