-- ==== Sys2Proof/Machine/IncDec.lean ====
section
/-! DEFINITION. Increments and decrements (42_incdec.md): one meaning per instruction, over the state after the operand fetch. -/

namespace Sys2Proof.Machine

/-- INC `zp`, 42_incdec.md R240. -/
def execIncZp (z : Byte) (s : State) : Host.Outcome State Fault Refusal :=
  complete 0xE6 (modifyMem (.zp z) incAlu s)

/-- INC `zpx`, 42_incdec.md R240. -/
def execIncZpx (z : Byte) (s : State) : Host.Outcome State Fault Refusal :=
  complete 0xF6 (modifyMem (.zpx z) incAlu s)

/-- INC `abs`, 42_incdec.md R240. -/
def execIncAbs (w : Word) (s : State) : Host.Outcome State Fault Refusal :=
  complete 0xEE (modifyMem (.abs w) incAlu s)

/-- INC `absx`, 42_incdec.md R240. -/
def execIncAbsx (w : Word) (s : State) : Host.Outcome State Fault Refusal :=
  complete 0xFE (modifyMem (.absx w) incAlu s)

/-- DEC `zp`, 42_incdec.md R241. -/
def execDecZp (z : Byte) (s : State) : Host.Outcome State Fault Refusal :=
  complete 0xC6 (modifyMem (.zp z) decAlu s)

/-- DEC `zpx`, 42_incdec.md R241. -/
def execDecZpx (z : Byte) (s : State) : Host.Outcome State Fault Refusal :=
  complete 0xD6 (modifyMem (.zpx z) decAlu s)

/-- DEC `abs`, 42_incdec.md R241. -/
def execDecAbs (w : Word) (s : State) : Host.Outcome State Fault Refusal :=
  complete 0xCE (modifyMem (.abs w) decAlu s)

/-- DEC `absx`, 42_incdec.md R241. -/
def execDecAbsx (w : Word) (s : State) : Host.Outcome State Fault Refusal :=
  complete 0xDE (modifyMem (.absx w) decAlu s)

/-- INX, 42_incdec.md R242: `X <- (X + 1) mod 256; setNZ(X)`. -/
def execInx (s : State) : Host.Outcome State Fault Refusal :=
  complete 0xE8 ((s.setX (s.x + 1)).setFlags (setNZ (s.x + 1) s.flags))

/-- INY, 42_incdec.md R243: `Y <- (Y + 1) mod 256; setNZ(Y)`. -/
def execIny (s : State) : Host.Outcome State Fault Refusal :=
  complete 0xC8 ((s.setY (s.y + 1)).setFlags (setNZ (s.y + 1) s.flags))

/-- DEX, 42_incdec.md R244: `X <- (X - 1) mod 256; setNZ(X)`. -/
def execDex (s : State) : Host.Outcome State Fault Refusal :=
  complete 0xCA ((s.setX (s.x - 1)).setFlags (setNZ (s.x - 1) s.flags))

/-- DEY, 42_incdec.md R245: `Y <- (Y - 1) mod 256; setNZ(Y)`. -/
def execDey (s : State) : Host.Outcome State Fault Refusal :=
  complete 0x88 ((s.setY (s.y - 1)).setFlags (setNZ (s.y - 1) s.flags))

end Sys2Proof.Machine
end

