-- ==== Sys2Proof/Machine/LoadStore.lean ====
section
/-! DEFINITION. Loads and stores (40_load_store.md): one meaning per instruction, over the state after the operand fetch. -/

namespace Sys2Proof.Machine

/-- LDA of 40_load_store.md R200: `A <- M; setNZ(M)`. -/
def lda (m : Byte) (s : State) : State := (s.setA m).setFlags (setNZ m s.flags)

/-- LDX of 40_load_store.md R201: `X <- M; setNZ(M)`. -/
def ldx (m : Byte) (s : State) : State := (s.setX m).setFlags (setNZ m s.flags)

/-- LDY of 40_load_store.md R202: `Y <- M; setNZ(M)`. -/
def ldy (m : Byte) (s : State) : State := (s.setY m).setFlags (setNZ m s.flags)

/-- LDA `imm`, 40_load_store.md R200. -/
def execLdaImm (v : Byte) (s : State) : Host.Outcome State Fault Refusal :=
  complete 0xA9 (lda v s)

/-- LDA `zp`, 40_load_store.md R200. -/
def execLdaZp (z : Byte) (s : State) : Host.Outcome State Fault Refusal :=
  complete 0xA5 (withMem (.zp z) lda s)

/-- LDA `zpx`, 40_load_store.md R200. -/
def execLdaZpx (z : Byte) (s : State) : Host.Outcome State Fault Refusal :=
  complete 0xB5 (withMem (.zpx z) lda s)

/-- LDA `abs`, 40_load_store.md R200. -/
def execLdaAbs (w : Word) (s : State) : Host.Outcome State Fault Refusal :=
  complete 0xAD (withMem (.abs w) lda s)

/-- LDA `absx`, 40_load_store.md R200. -/
def execLdaAbsx (w : Word) (s : State) : Host.Outcome State Fault Refusal :=
  complete 0xBD (withMem (.absx w) lda s)

/-- LDA `absy`, 40_load_store.md R200. -/
def execLdaAbsy (w : Word) (s : State) : Host.Outcome State Fault Refusal :=
  complete 0xB9 (withMem (.absy w) lda s)

/-- LDA `indx`, 40_load_store.md R200. -/
def execLdaIndx (z : Byte) (s : State) : Host.Outcome State Fault Refusal :=
  complete 0xA1 (withMem (.indx z) lda s)

/-- LDA `indy`, 40_load_store.md R200. -/
def execLdaIndy (z : Byte) (s : State) : Host.Outcome State Fault Refusal :=
  complete 0xB1 (withMem (.indy z) lda s)

/-- LDX `imm`, 40_load_store.md R201. -/
def execLdxImm (v : Byte) (s : State) : Host.Outcome State Fault Refusal :=
  complete 0xA2 (ldx v s)

/-- LDX `zp`, 40_load_store.md R201. -/
def execLdxZp (z : Byte) (s : State) : Host.Outcome State Fault Refusal :=
  complete 0xA6 (withMem (.zp z) ldx s)

/-- LDX `zpy`, 40_load_store.md R201. -/
def execLdxZpy (z : Byte) (s : State) : Host.Outcome State Fault Refusal :=
  complete 0xB6 (withMem (.zpy z) ldx s)

/-- LDX `abs`, 40_load_store.md R201. -/
def execLdxAbs (w : Word) (s : State) : Host.Outcome State Fault Refusal :=
  complete 0xAE (withMem (.abs w) ldx s)

/-- LDX `absy`, 40_load_store.md R201. -/
def execLdxAbsy (w : Word) (s : State) : Host.Outcome State Fault Refusal :=
  complete 0xBE (withMem (.absy w) ldx s)

/-- LDY `imm`, 40_load_store.md R202. -/
def execLdyImm (v : Byte) (s : State) : Host.Outcome State Fault Refusal :=
  complete 0xA0 (ldy v s)

/-- LDY `zp`, 40_load_store.md R202. -/
def execLdyZp (z : Byte) (s : State) : Host.Outcome State Fault Refusal :=
  complete 0xA4 (withMem (.zp z) ldy s)

/-- LDY `zpx`, 40_load_store.md R202. -/
def execLdyZpx (z : Byte) (s : State) : Host.Outcome State Fault Refusal :=
  complete 0xB4 (withMem (.zpx z) ldy s)

/-- LDY `abs`, 40_load_store.md R202. -/
def execLdyAbs (w : Word) (s : State) : Host.Outcome State Fault Refusal :=
  complete 0xAC (withMem (.abs w) ldy s)

/-- LDY `absx`, 40_load_store.md R202. -/
def execLdyAbsx (w : Word) (s : State) : Host.Outcome State Fault Refusal :=
  complete 0xBC (withMem (.absx w) ldy s)

/-- STA `zp`, 40_load_store.md R203. -/
def execStaZp (z : Byte) (s : State) : Host.Outcome State Fault Refusal :=
  complete 0x85 (storeMem (.zp z) State.a s)

/-- STA `zpx`, 40_load_store.md R203. -/
def execStaZpx (z : Byte) (s : State) : Host.Outcome State Fault Refusal :=
  complete 0x95 (storeMem (.zpx z) State.a s)

/-- STA `abs`, 40_load_store.md R203. -/
def execStaAbs (w : Word) (s : State) : Host.Outcome State Fault Refusal :=
  complete 0x8D (storeMem (.abs w) State.a s)

/-- STA `absx`, 40_load_store.md R203. -/
def execStaAbsx (w : Word) (s : State) : Host.Outcome State Fault Refusal :=
  complete 0x9D (storeMem (.absx w) State.a s)

/-- STA `absy`, 40_load_store.md R203. -/
def execStaAbsy (w : Word) (s : State) : Host.Outcome State Fault Refusal :=
  complete 0x99 (storeMem (.absy w) State.a s)

/-- STA `indx`, 40_load_store.md R203. -/
def execStaIndx (z : Byte) (s : State) : Host.Outcome State Fault Refusal :=
  complete 0x81 (storeMem (.indx z) State.a s)

/-- STA `indy`, 40_load_store.md R203. -/
def execStaIndy (z : Byte) (s : State) : Host.Outcome State Fault Refusal :=
  complete 0x91 (storeMem (.indy z) State.a s)

/-- STX `zp`, 40_load_store.md R204. -/
def execStxZp (z : Byte) (s : State) : Host.Outcome State Fault Refusal :=
  complete 0x86 (storeMem (.zp z) State.x s)

/-- STX `zpy`, 40_load_store.md R204. -/
def execStxZpy (z : Byte) (s : State) : Host.Outcome State Fault Refusal :=
  complete 0x96 (storeMem (.zpy z) State.x s)

/-- STX `abs`, 40_load_store.md R204. -/
def execStxAbs (w : Word) (s : State) : Host.Outcome State Fault Refusal :=
  complete 0x8E (storeMem (.abs w) State.x s)

/-- STY `zp`, 40_load_store.md R205. -/
def execStyZp (z : Byte) (s : State) : Host.Outcome State Fault Refusal :=
  complete 0x84 (storeMem (.zp z) State.y s)

/-- STY `zpx`, 40_load_store.md R205. -/
def execStyZpx (z : Byte) (s : State) : Host.Outcome State Fault Refusal :=
  complete 0x94 (storeMem (.zpx z) State.y s)

/-- STY `abs`, 40_load_store.md R205. -/
def execStyAbs (w : Word) (s : State) : Host.Outcome State Fault Refusal :=
  complete 0x8C (storeMem (.abs w) State.y s)

end Sys2Proof.Machine
end

