-- ==== Sys2Proof/Machine/LogicCompare.lean ====
section
/-! DEFINITION. Logical operations, comparisons and BIT (44_logic_compare.md): one meaning per instruction, over the state after the operand fetch. -/

namespace Sys2Proof.Machine

/-- AND of 44_logic_compare.md R280. -/
def logicAnd (m : Byte) (s : State) : State := accumulate andAlu m s

/-- ORA of 44_logic_compare.md R281. -/
def logicOra (m : Byte) (s : State) : State := accumulate oraAlu m s

/-- EOR of 44_logic_compare.md R282. -/
def logicEor (m : Byte) (s : State) : State := accumulate eorAlu m s

/-- CMP of 44_logic_compare.md R284: `Compare(A, M)`. -/
def cmpA (m : Byte) (s : State) : State := s.setFlags (compareAlu s.a m s.flags)

/-- CPX of 44_logic_compare.md R285: `Compare(X, M)`. -/
def cmpX (m : Byte) (s : State) : State := s.setFlags (compareAlu s.x m s.flags)

/-- CPY of 44_logic_compare.md R286: `Compare(Y, M)`. -/
def cmpY (m : Byte) (s : State) : State := s.setFlags (compareAlu s.y m s.flags)

/-- BIT of 44_logic_compare.md R287; A is not written. -/
def bitTest (m : Byte) (s : State) : State := s.setFlags (bitAlu s.a m s.flags)

/-- AND `imm`, 44_logic_compare.md R280. -/
def execAndImm (v : Byte) (s : State) : Host.Outcome State Fault Refusal :=
  complete 0x29 (logicAnd v s)

/-- AND `zp`, 44_logic_compare.md R280. -/
def execAndZp (z : Byte) (s : State) : Host.Outcome State Fault Refusal :=
  complete 0x25 (withMem (.zp z) logicAnd s)

/-- AND `zpx`, 44_logic_compare.md R280. -/
def execAndZpx (z : Byte) (s : State) : Host.Outcome State Fault Refusal :=
  complete 0x35 (withMem (.zpx z) logicAnd s)

/-- AND `abs`, 44_logic_compare.md R280. -/
def execAndAbs (w : Word) (s : State) : Host.Outcome State Fault Refusal :=
  complete 0x2D (withMem (.abs w) logicAnd s)

/-- AND `absx`, 44_logic_compare.md R280. -/
def execAndAbsx (w : Word) (s : State) : Host.Outcome State Fault Refusal :=
  complete 0x3D (withMem (.absx w) logicAnd s)

/-- AND `absy`, 44_logic_compare.md R280. -/
def execAndAbsy (w : Word) (s : State) : Host.Outcome State Fault Refusal :=
  complete 0x39 (withMem (.absy w) logicAnd s)

/-- AND `indx`, 44_logic_compare.md R280. -/
def execAndIndx (z : Byte) (s : State) : Host.Outcome State Fault Refusal :=
  complete 0x21 (withMem (.indx z) logicAnd s)

/-- AND `indy`, 44_logic_compare.md R280. -/
def execAndIndy (z : Byte) (s : State) : Host.Outcome State Fault Refusal :=
  complete 0x31 (withMem (.indy z) logicAnd s)

/-- ORA `imm`, 44_logic_compare.md R281. -/
def execOraImm (v : Byte) (s : State) : Host.Outcome State Fault Refusal :=
  complete 0x09 (logicOra v s)

/-- ORA `zp`, 44_logic_compare.md R281. -/
def execOraZp (z : Byte) (s : State) : Host.Outcome State Fault Refusal :=
  complete 0x05 (withMem (.zp z) logicOra s)

/-- ORA `zpx`, 44_logic_compare.md R281. -/
def execOraZpx (z : Byte) (s : State) : Host.Outcome State Fault Refusal :=
  complete 0x15 (withMem (.zpx z) logicOra s)

/-- ORA `abs`, 44_logic_compare.md R281. -/
def execOraAbs (w : Word) (s : State) : Host.Outcome State Fault Refusal :=
  complete 0x0D (withMem (.abs w) logicOra s)

/-- ORA `absx`, 44_logic_compare.md R281. -/
def execOraAbsx (w : Word) (s : State) : Host.Outcome State Fault Refusal :=
  complete 0x1D (withMem (.absx w) logicOra s)

/-- ORA `absy`, 44_logic_compare.md R281. -/
def execOraAbsy (w : Word) (s : State) : Host.Outcome State Fault Refusal :=
  complete 0x19 (withMem (.absy w) logicOra s)

/-- ORA `indx`, 44_logic_compare.md R281. -/
def execOraIndx (z : Byte) (s : State) : Host.Outcome State Fault Refusal :=
  complete 0x01 (withMem (.indx z) logicOra s)

/-- ORA `indy`, 44_logic_compare.md R281. -/
def execOraIndy (z : Byte) (s : State) : Host.Outcome State Fault Refusal :=
  complete 0x11 (withMem (.indy z) logicOra s)

/-- EOR `imm`, 44_logic_compare.md R282. -/
def execEorImm (v : Byte) (s : State) : Host.Outcome State Fault Refusal :=
  complete 0x49 (logicEor v s)

/-- EOR `zp`, 44_logic_compare.md R282. -/
def execEorZp (z : Byte) (s : State) : Host.Outcome State Fault Refusal :=
  complete 0x45 (withMem (.zp z) logicEor s)

/-- EOR `zpx`, 44_logic_compare.md R282. -/
def execEorZpx (z : Byte) (s : State) : Host.Outcome State Fault Refusal :=
  complete 0x55 (withMem (.zpx z) logicEor s)

/-- EOR `abs`, 44_logic_compare.md R282. -/
def execEorAbs (w : Word) (s : State) : Host.Outcome State Fault Refusal :=
  complete 0x4D (withMem (.abs w) logicEor s)

/-- EOR `absx`, 44_logic_compare.md R282. -/
def execEorAbsx (w : Word) (s : State) : Host.Outcome State Fault Refusal :=
  complete 0x5D (withMem (.absx w) logicEor s)

/-- EOR `absy`, 44_logic_compare.md R282. -/
def execEorAbsy (w : Word) (s : State) : Host.Outcome State Fault Refusal :=
  complete 0x59 (withMem (.absy w) logicEor s)

/-- EOR `indx`, 44_logic_compare.md R282. -/
def execEorIndx (z : Byte) (s : State) : Host.Outcome State Fault Refusal :=
  complete 0x41 (withMem (.indx z) logicEor s)

/-- EOR `indy`, 44_logic_compare.md R282. -/
def execEorIndy (z : Byte) (s : State) : Host.Outcome State Fault Refusal :=
  complete 0x51 (withMem (.indy z) logicEor s)

/-- CMP `imm`, 44_logic_compare.md R284. -/
def execCmpImm (v : Byte) (s : State) : Host.Outcome State Fault Refusal :=
  complete 0xC9 (cmpA v s)

/-- CMP `zp`, 44_logic_compare.md R284. -/
def execCmpZp (z : Byte) (s : State) : Host.Outcome State Fault Refusal :=
  complete 0xC5 (withMem (.zp z) cmpA s)

/-- CMP `zpx`, 44_logic_compare.md R284. -/
def execCmpZpx (z : Byte) (s : State) : Host.Outcome State Fault Refusal :=
  complete 0xD5 (withMem (.zpx z) cmpA s)

/-- CMP `abs`, 44_logic_compare.md R284. -/
def execCmpAbs (w : Word) (s : State) : Host.Outcome State Fault Refusal :=
  complete 0xCD (withMem (.abs w) cmpA s)

/-- CMP `absx`, 44_logic_compare.md R284. -/
def execCmpAbsx (w : Word) (s : State) : Host.Outcome State Fault Refusal :=
  complete 0xDD (withMem (.absx w) cmpA s)

/-- CMP `absy`, 44_logic_compare.md R284. -/
def execCmpAbsy (w : Word) (s : State) : Host.Outcome State Fault Refusal :=
  complete 0xD9 (withMem (.absy w) cmpA s)

/-- CMP `indx`, 44_logic_compare.md R284. -/
def execCmpIndx (z : Byte) (s : State) : Host.Outcome State Fault Refusal :=
  complete 0xC1 (withMem (.indx z) cmpA s)

/-- CMP `indy`, 44_logic_compare.md R284. -/
def execCmpIndy (z : Byte) (s : State) : Host.Outcome State Fault Refusal :=
  complete 0xD1 (withMem (.indy z) cmpA s)

/-- CPX `imm`, 44_logic_compare.md R285. -/
def execCpxImm (v : Byte) (s : State) : Host.Outcome State Fault Refusal :=
  complete 0xE0 (cmpX v s)

/-- CPX `zp`, 44_logic_compare.md R285. -/
def execCpxZp (z : Byte) (s : State) : Host.Outcome State Fault Refusal :=
  complete 0xE4 (withMem (.zp z) cmpX s)

/-- CPX `abs`, 44_logic_compare.md R285. -/
def execCpxAbs (w : Word) (s : State) : Host.Outcome State Fault Refusal :=
  complete 0xEC (withMem (.abs w) cmpX s)

/-- CPY `imm`, 44_logic_compare.md R286. -/
def execCpyImm (v : Byte) (s : State) : Host.Outcome State Fault Refusal :=
  complete 0xC0 (cmpY v s)

/-- CPY `zp`, 44_logic_compare.md R286. -/
def execCpyZp (z : Byte) (s : State) : Host.Outcome State Fault Refusal :=
  complete 0xC4 (withMem (.zp z) cmpY s)

/-- CPY `abs`, 44_logic_compare.md R286. -/
def execCpyAbs (w : Word) (s : State) : Host.Outcome State Fault Refusal :=
  complete 0xCC (withMem (.abs w) cmpY s)

/-- BIT `zp`, 44_logic_compare.md R287. -/
def execBitZp (z : Byte) (s : State) : Host.Outcome State Fault Refusal :=
  complete 0x24 (withMem (.zp z) bitTest s)

/-- BIT `abs`, 44_logic_compare.md R287. -/
def execBitAbs (w : Word) (s : State) : Host.Outcome State Fault Refusal :=
  complete 0x2C (withMem (.abs w) bitTest s)

end Sys2Proof.Machine
end

