-- ==== Sys2Proof/Machine/ShiftRotate.lean ====
section
/-! DEFINITION. Shifts and rotates (43_shift_rotate.md): one meaning per instruction, over the state after the operand fetch. -/

namespace Sys2Proof.Machine

/-- ASL `acc`, 43_shift_rotate.md R260. -/
def execAslAcc (s : State) : Host.Outcome State Fault Refusal :=
  complete 0x0A (modifyAcc aslAlu s)

/-- ASL `zp`, 43_shift_rotate.md R260. -/
def execAslZp (z : Byte) (s : State) : Host.Outcome State Fault Refusal :=
  complete 0x06 (modifyMem (.zp z) aslAlu s)

/-- ASL `zpx`, 43_shift_rotate.md R260. -/
def execAslZpx (z : Byte) (s : State) : Host.Outcome State Fault Refusal :=
  complete 0x16 (modifyMem (.zpx z) aslAlu s)

/-- ASL `abs`, 43_shift_rotate.md R260. -/
def execAslAbs (w : Word) (s : State) : Host.Outcome State Fault Refusal :=
  complete 0x0E (modifyMem (.abs w) aslAlu s)

/-- ASL `absx`, 43_shift_rotate.md R260. -/
def execAslAbsx (w : Word) (s : State) : Host.Outcome State Fault Refusal :=
  complete 0x1E (modifyMem (.absx w) aslAlu s)

/-- LSR `acc`, 43_shift_rotate.md R261. -/
def execLsrAcc (s : State) : Host.Outcome State Fault Refusal :=
  complete 0x4A (modifyAcc lsrAlu s)

/-- LSR `zp`, 43_shift_rotate.md R261. -/
def execLsrZp (z : Byte) (s : State) : Host.Outcome State Fault Refusal :=
  complete 0x46 (modifyMem (.zp z) lsrAlu s)

/-- LSR `zpx`, 43_shift_rotate.md R261. -/
def execLsrZpx (z : Byte) (s : State) : Host.Outcome State Fault Refusal :=
  complete 0x56 (modifyMem (.zpx z) lsrAlu s)

/-- LSR `abs`, 43_shift_rotate.md R261. -/
def execLsrAbs (w : Word) (s : State) : Host.Outcome State Fault Refusal :=
  complete 0x4E (modifyMem (.abs w) lsrAlu s)

/-- LSR `absx`, 43_shift_rotate.md R261. -/
def execLsrAbsx (w : Word) (s : State) : Host.Outcome State Fault Refusal :=
  complete 0x5E (modifyMem (.absx w) lsrAlu s)

/-- ROL `acc`, 43_shift_rotate.md R262. -/
def execRolAcc (s : State) : Host.Outcome State Fault Refusal :=
  complete 0x2A (modifyAcc rolAlu s)

/-- ROL `zp`, 43_shift_rotate.md R262. -/
def execRolZp (z : Byte) (s : State) : Host.Outcome State Fault Refusal :=
  complete 0x26 (modifyMem (.zp z) rolAlu s)

/-- ROL `zpx`, 43_shift_rotate.md R262. -/
def execRolZpx (z : Byte) (s : State) : Host.Outcome State Fault Refusal :=
  complete 0x36 (modifyMem (.zpx z) rolAlu s)

/-- ROL `abs`, 43_shift_rotate.md R262. -/
def execRolAbs (w : Word) (s : State) : Host.Outcome State Fault Refusal :=
  complete 0x2E (modifyMem (.abs w) rolAlu s)

/-- ROL `absx`, 43_shift_rotate.md R262. -/
def execRolAbsx (w : Word) (s : State) : Host.Outcome State Fault Refusal :=
  complete 0x3E (modifyMem (.absx w) rolAlu s)

/-- ROR `acc`, 43_shift_rotate.md R263. -/
def execRorAcc (s : State) : Host.Outcome State Fault Refusal :=
  complete 0x6A (modifyAcc rorAlu s)

/-- ROR `zp`, 43_shift_rotate.md R263. -/
def execRorZp (z : Byte) (s : State) : Host.Outcome State Fault Refusal :=
  complete 0x66 (modifyMem (.zp z) rorAlu s)

/-- ROR `zpx`, 43_shift_rotate.md R263. -/
def execRorZpx (z : Byte) (s : State) : Host.Outcome State Fault Refusal :=
  complete 0x76 (modifyMem (.zpx z) rorAlu s)

/-- ROR `abs`, 43_shift_rotate.md R263. -/
def execRorAbs (w : Word) (s : State) : Host.Outcome State Fault Refusal :=
  complete 0x6E (modifyMem (.abs w) rorAlu s)

/-- ROR `absx`, 43_shift_rotate.md R263. -/
def execRorAbsx (w : Word) (s : State) : Host.Outcome State Fault Refusal :=
  complete 0x7E (modifyMem (.absx w) rorAlu s)

end Sys2Proof.Machine
end

