-- ==== Sys2Proof/Machine/TransferStack.lean ====
section
/-! DEFINITION. Register transfers and stack operations (46_transfer_stack.md): one meaning per instruction, over the state after the operand fetch. -/

namespace Sys2Proof.Machine

/-- TAX, 46_transfer_stack.md R320: `X <- A; setNZ(X)`. -/
def execTax (s : State) : Host.Outcome State Fault Refusal :=
  complete 0xAA ((s.setX s.a).setFlags (setNZ s.a s.flags))

/-- TXA, 46_transfer_stack.md R321: `A <- X; setNZ(A)`. -/
def execTxa (s : State) : Host.Outcome State Fault Refusal :=
  complete 0x8A ((s.setA s.x).setFlags (setNZ s.x s.flags))

/-- TAY, 46_transfer_stack.md R322: `Y <- A; setNZ(Y)`. -/
def execTay (s : State) : Host.Outcome State Fault Refusal :=
  complete 0xA8 ((s.setY s.a).setFlags (setNZ s.a s.flags))

/-- TYA, 46_transfer_stack.md R323: `A <- Y; setNZ(A)`. -/
def execTya (s : State) : Host.Outcome State Fault Refusal :=
  complete 0x98 ((s.setA s.y).setFlags (setNZ s.y s.flags))

/-- TSX, 46_transfer_stack.md R324: `X <- SP; setNZ(X)`. -/
def execTsx (s : State) : Host.Outcome State Fault Refusal :=
  complete 0xBA ((s.setX s.sp).setFlags (setNZ s.sp s.flags))

/-- TXS, 46_transfer_stack.md R325: `SP <- X`, no flags. -/
def execTxs (s : State) : Host.Outcome State Fault Refusal :=
  complete 0x9A (s.setSp s.x)

/-- PHA, 46_transfer_stack.md R326: `Push(A)`. -/
def execPha (s : State) : Host.Outcome State Fault Refusal :=
  complete 0x48 (push s.a s)

/-- PHP, 46_transfer_stack.md R327: `Push(PackP())`. -/
def execPhp (s : State) : Host.Outcome State Fault Refusal :=
  complete 0x08 (push (packP s.cfg.phpBits54 s.flags) s)

/-- PLA, 46_transfer_stack.md R328: `A <- Pull(); setNZ(A)`. -/
def execPla (s : State) : Host.Outcome State Fault Refusal :=
  complete 0x68 (let (v, s1) := pull s; (s1.setA v).setFlags (setNZ v s1.flags))

/-- PLP, 46_transfer_stack.md R329: `UnpackP(Pull())`. -/
def execPlp (s : State) : Host.Outcome State Fault Refusal :=
  complete 0x28 (let (p, s1) := pull s; s1.setFlags (unpackP p))

end Sys2Proof.Machine
end

