-- ==== Sys2Proof/Machine/Unwritten.lean ====
section
/-! DEFINITION. Instructions before the first CPU `reset()`: which registers each rule reads and writes, in which phase, and
the fault at the first read of an unwritten one (60_exceptions.md R404, R406; 00_scope.md R6). -/

namespace Sys2Proof.Machine

/-! The written marks. -/

/-- The mark of a register. -/
def Written.has (w : Written) : Reg → Bool
  | .a => w.a
  | .x => w.x
  | .y => w.y
  | .sp => w.sp
  | .pc => w.pc
  | .c => w.c
  | .z => w.z
  | .i => w.i
  | .d => w.d
  | .v => w.v
  | .n => w.n
  | .cycles => w.cycles

/-- A register holds a value from now on. -/
def Written.mark (w : Written) : Reg → Written
  | .a => { w with a := true }
  | .x => { w with x := true }
  | .y => { w with y := true }
  | .sp => { w with sp := true }
  | .pc => { w with pc := true }
  | .c => { w with c := true }
  | .z => { w with z := true }
  | .i => { w with i := true }
  | .d => { w with d := true }
  | .v => { w with v := true }
  | .n => { w with n := true }
  | .cycles => { w with cycles := true }

/-- Whether all of some registers hold values. -/
def Written.covers (w : Written) (regs : List Reg) : Bool := regs.all w.has

/-- The six flags (10_state.md R36). -/
def flagRegs : List Reg := [.c, .z, .i, .d, .v, .n]

/-! What the rules of files 40 to 47 read and write, besides PC and cycles. DEDUCED (log entry 2): the phase of each read. -/

/-- The index register a mode reads before any bus access (30_encoding.md R122). -/
def indexReads : MemMode → List Reg
  | .zpx _ | .absx _ | .indx _ => [.x]
  | .zpy _ | .absy _ => [.y]
  | .zp _ | .abs _ | .indy _ => []

/-- The index register a mode reads after its pointer reads: `MemReadZP(b1) + Y` (30_encoding.md R122). -/
def lateIndexReads : MemMode → List Reg
  | .indy _ => [.y]
  | .zp _ | .zpx _ | .zpy _ | .abs _ | .absx _ | .absy _ | .indx _ => []

/-- Whether a mnemonic's memory forms read the byte at EA before anything else (30_encoding.md R123, R124). -/
def readsOperandByte : Mnemonic → Bool
  | .lda | .ldx | .ldy | .adc | .sbc | .inc | .dec | .asl | .lsr | .rol | .ror | .and | .ora | .eor | .cmp | .cpx
  | .cpy | .bit => true
  | .sta | .stx | .sty | .inx | .iny | .dex | .dey | .bpl | .bmi | .bvc | .bvs | .bcc | .bcs | .bne | .beq | .tax
  | .txa | .tay | .tya | .tsx | .txs | .pha | .php | .pla | .plp | .jmp | .jsr | .rts | .sec | .sed | .sei | .clc
  | .cld | .cli | .clv | .nop | .brk | .rti => false

/-- The registers a mnemonic's rule reads before it writes anything, once it has its operand's value or address; for BRK,
those it reads before its first push. -/
def ruleReads : Mnemonic → List Reg
  | .adc | .sbc => [.d, .a, .c]
  | .and | .ora | .eor | .cmp | .bit | .sta | .tax | .tay => [.a]
  | .stx | .cpx | .inx | .dex | .txa | .txs => [.x]
  | .sty | .cpy | .iny | .dey | .tya => [.y]
  | .rol | .ror | .bcc | .bcs => [.c]
  | .bpl | .bmi => [.n]
  | .bvc | .bvs => [.v]
  | .bne | .beq => [.z]
  | .pha => [.a, .sp]
  | .php => .sp :: flagRegs
  | .tsx | .pla | .plp | .jsr | .rts | .brk | .rti => [.sp]
  | .lda | .ldx | .ldy | .inc | .dec | .asl | .lsr | .jmp | .sec | .sed | .sei | .clc | .cld | .cli | .clv
  | .nop => []

/-- The registers a mnemonic's rule writes (10_state.md R30 to R36); a shift writes A besides in its accumulator form. -/
def ruleWrites : Mnemonic → List Reg
  | .lda | .and | .ora | .eor | .txa | .tya | .pla => [.a, .z, .n]
  | .ldx | .inx | .dex | .tax | .tsx => [.x, .z, .n]
  | .ldy | .iny | .dey | .tay => [.y, .z, .n]
  | .adc | .sbc => [.a, .c, .z, .v, .n]
  | .cmp | .cpx | .cpy | .asl | .lsr | .rol | .ror => [.c, .z, .n]
  | .bit => [.z, .v, .n]
  | .inc | .dec => [.z, .n]
  | .txs => [.sp]
  | .sec | .clc => [.c]
  | .sed | .cld => [.d]
  | .sei | .cli | .brk => [.i]
  | .clv => [.v]
  | .plp | .rti => flagRegs
  | .sta | .stx | .sty | .bpl | .bmi | .bvc | .bvs | .bcc | .bcs | .bne | .beq | .pha | .php | .jmp | .jsr | .rts
  | .nop => []

/-- The registers an instruction writes. -/
def destinations (i : Instr) : List Reg :=
  if i.operand = .acc then .a :: ruleWrites i.mnemonic else ruleWrites i.mnemonic

/-- The state at an instruction's first read of an unwritten register, "in the order of the instruction's rule"
(60_exceptions.md R406), from the state after its operand fetch: before any bus access, after the pointer reads, after
the read of the operand byte, or, in BRK, after the return address is pushed. `none` if every register the rule reads
is written. -/
def firstUnwritten (i : Instr) (s : State) : Option State :=
  match i.operand with
  | .mem m =>
    if s.written.covers (indexReads m) then
      let (ea, s1) := effectiveAddress m s
      if s.written.covers (lateIndexReads m) then
        if s.written.covers (ruleReads i.mnemonic) then none
        else some (if readsOperandByte i.mnemonic then s1.afterRead ea else s1)
      else some s1
    else some s
  | .acc => if s.written.covers (.a :: ruleReads i.mnemonic) then none else some s
  | .imp | .imm _ | .ind _ | .rel _ =>
    if s.written.covers (ruleReads i.mnemonic) then
      if i = .brk ∧ s.written.covers flagRegs = false then some (pushWord (s.pc + 1) s) else none
    else some s

/-- What a completed instruction's writes leave, where some registers are still unwritten: its destinations hold values, and,
DEDUCED (log entry 2), the last line of 30_encoding.md R130 reads `cycles`, which faults while `cycles` is unwritten and is
then not written. -/
def settleWrites (op : Byte) (pc0 : Word) (i : Instr) (s t : State) : State :=
  let t1 := t.setWritten ((destinations i).foldl Written.mark s.written)
  if s.written.cycles then t1 else raiseUndefinedRead (some op) (some pc0) (t1.setCycles s.cycles)

/-- `Execute` and the last line of `Step` (30_encoding.md R130) on the state after the operand fetch, for an instruction
fetched at `pc0`: `exec`, stopped at the first read of an unwritten register (60_exceptions.md R404). -/
def execute (op : Byte) (pc0 : Word) (i : Instr) (s : State) : Host.Outcome State Fault Refusal :=
  if s.written = .every true then exec i s
  else
    match firstUnwritten i s with
    | some t => finish (raiseUndefinedRead (some op) (some pc0) t)
    | none =>
      match exec i s with
      | .next t => .next (settleWrites op pc0 i s t)
      | .fault r => .fault r
      | .refused r => .refused r

end Sys2Proof.Machine
end

