-- ==== Sys2Proof/Machine/Sequencer.lean ====
section
/-! DEFINITION. The program-counter sequencer (30_encoding.md R130): opcode fetch, decode, operand fetch, execution, and the
placing of an instruction where the next step fetches it. -/

namespace Sys2Proof.Machine

/-- The operand fetch of 30_encoding.md R130: no byte for F1, `MemRead(PC, 1)` for F2, `MemRead(PC, 2)` for F3, PC moved
past it. -/
def fetchOperand (f : Form) (s : State) : Instr × State :=
  match f with
  | .f1 i => (i, s)
  | .f2 mk =>
    let (b1, s1) := s.memRead s.pc
    (mk b1, s1.setPc (s1.pc + 1))
  | .f3 mk =>
    let (w, s1) := s.readShort s.pc
    (mk w, s1.setPc (s1.pc + 2))

/-- `Step()` of 30_encoding.md R130. -/
def runStep (s : State) : Host.Outcome State Fault Refusal :=
  if s.written.pc then
    let (op, s1) := s.memRead s.pc
    match decodeOpcode s1.cfg.enableBrkRti op with
    | none => finish (raiseUnimplemented op s.pc s1)
    | some f =>
      let (i, s2) := fetchOperand f (s1.setPc (s.pc + 1))
      execute op s.pc i s2
  else finish (raiseUndefinedRead none none s)

/-- One step: "taken only while running = true" (30_encoding.md R130, 10_state.md R41). With `running` false nothing
happens until the host acts (60_exceptions.md R424; log entry 3). -/
def oneStep (s : State) : Host.Outcome State Fault Refusal :=
  if s.running then runStep s else finish s

/-- The state with the instruction of a word of the opcode table at PC and `running` set, so that the next step fetches and
runs it (log entry 10). A word whose first byte is BRK's or RTI's also needs the condition of that row, `ENABLE_BRK_RTI`
(log entry 11). -/
def placeTableWord (s : State) (nbits w : Nat) : State :=
  let s1 := match tableWordBytes nbits w with
    | [b0, b1, b2] => ((s.poke (s.pc + 2) b2).poke (s.pc + 1) b1).poke s.pc b0
    | _ => s
  let s2 := s1.setRunning true
  if isBrkOrRti (BitVec.ofNat 8 (w % 2 ^ nbits)) then { s2 with cfg := { s2.cfg with enableBrkRti := true } } else s2

end Sys2Proof.Machine
end

