-- ==== Sys2Proof/Machine/Step.lean ====
section
/-! DEFINITION. The machine's step, and where its next instruction is fetched from. -/

namespace Sys2Proof.Machine

/-- One step of the machine: 30_encoding.md R130 while `running` holds. -/
def step (s : State) : Host.Outcome State Fault Refusal := oneStep s

/-- `s` with the instruction of a word of spec/opcode_table.json placed so that the next step runs it. -/
def State.withFetchWord (s : State) (nbits w : Nat) : State := placeTableWord s nbits w

end Sys2Proof.Machine
end

