-- ==== Sys2Proof/WellFormed.lean ====
section
/-! DEFINITION. Well-formed parameters and instructions. Every operand value is legal (30_encoding.md R128: "Operand bytes
have no illegal values"), so the one check on an instruction is the condition of the table's BRK and RTI rows. -/

namespace Sys2Proof

/-- 20_memory.md R85: `init(size)` fails with `InvalidSize` if `size = 0` or `size > 65536`. -/
def Config.wf (cfg : Config) : Bool :=
  decide (1 ≤ cfg.memSize) && decide (cfg.memSize ≤ 65536)

/-- 30_encoding.md R131: BRK and RTI are instructions of the machine only when `ENABLE_BRK_RTI` is set. -/
def Instr.wf (cfg : Config) (i : Instr) : Bool :=
  if i = .brk ∨ i = .rti then cfg.enableBrkRti else true

end Sys2Proof
end

