-- ==== Sys2Proof/Machine/HostInterface.lean ====
section
/-! DEFINITION. The host interface of the block (60_exceptions.md R430): construction, the three resets, bulk transfers, direct
bus accesses, watch registration, run and stop, batches, keyboard input and the observers. Each command is a function of the
state, admitted between two steps; `act` interleaves commands and steps in any order (R433, 70_reset_and_hazards.md R475). -/

namespace Sys2Proof.Machine

/-- The host command errors of 60_exceptions.md R402: returned to the caller, no state change, no event. -/
inductive HostError where
  | invalidSize
  | outOfRange
deriving DecidableEq, Repr

/-! Construction (60_exceptions.md R437): the bus, then the CPU, then the PIA. -/

/-- `init(size)` of 20_memory.md R85 with `size = MEM_SIZE`: the array all zero, or `InvalidSize`. Nothing is registered or
emitted yet. DESIGN CHOICE (log entry 2): the bits stored under the marks of unwritten registers, the six flags among them,
are 0. -/
def busInit (cfg : Config) : Except HostError State :=
  if cfg.wf then
    .ok { State.reset with
      cfg := cfg, a := 0, x := 0, y := 0, sp := 0, pc := 0, cycles := 0, mem := [], readWatch := [], writeWatch := [],
      flags := { c := false, z := false, i := false, d := false, v := false, n := false }, written := .every false }
  else .error .invalidSize

/-- CPU `init(bus)`: every register unwritten, not running (10_state.md R50). -/
def cpuInit (s : State) : State := { s with written := .every false, running := false }

/-- PIA `init(bus)`: the latches false (10_state.md R45) and the four registrations of 60_exceptions.md R411, in order. -/
def piaInit (s : State) : State :=
  let s := s.setLatches { inputEnabled := false, outputEnabled := false, inputAvailable := false }
  (((s.addReadWatch s.kbd .kbdRead).addWriteWatch s.kbdcr .kbdcrWrite).addWriteWatch s.dsp .dspWrite).addWriteWatch
    s.dspcr .dspcrWrite

/-- The block at construction (10_state.md R50), built in the order of 60_exceptions.md R437. -/
def construct (cfg : Config) : Except HostError State :=
  match busInit cfg with
  | .ok s => .ok (piaInit (cpuInit s))
  | .error e => .error e

/-! The three resets (10_state.md R51). None calls another. -/

/-- CPU `reset()` of 70_reset_and_hazards.md R460: the registers first, then the dispatched vector read, low byte first. -/
def cpuReset (s : State) : State :=
  let s1 := { s with
    a := 0x00, x := 0x00, y := 0x00, sp := s.cfg.spReset, flags := s.cfg.flagsReset, cycles := 0 }
  let (target, s2) := s1.readShort s1.cfg.resetVector
  { s2 with pc := target, written := .every true }

/-- Bus `reset()` of 20_memory.md R86: every byte 0x00; watches and suppression as they were; no handler runs. -/
def busReset (s : State) : State := s.setMem []

/-- PIA `reset()` of 70_reset_and_hazards.md R463: the latches, not the memory bytes. -/
def piaReset (s : State) : State :=
  s.setLatches { inputEnabled := false, outputEnabled := false, inputAvailable := false }

/-! Bulk transfers (20_memory.md R83, R84). -/

/-- `mem[k + i] <- bytes[i]`, in order, with no dispatch. -/
def storeBytes : Nat → List Byte → List Host.Cell → List Host.Cell
  | _, [], m => m
  | k, b :: bs, m => storeBytes (k + 1) bs (updateAt 0 m k b)

/-- `loadBulk(bytes, at16)` of 20_memory.md R83: the whole range or `OutOfRange`; `at + n` as a mathematical integer. -/
def loadBulk (bytes : List Byte) (start : Word) (s : State) : Except HostError State :=
  if start.toNat + bytes.length > s.cfg.memSize then .error .outOfRange
  else .ok (s.setMem (storeBytes start.toNat bytes s.mem))

/-- `dumpRange(from16, to16)` of 20_memory.md R84: both ends inclusive; `OutOfRange` if `to >= S` or `to < from`. -/
def dumpRange (first last : Word) (s : State) : Except HostError (List Byte) :=
  if last.toNat ≥ s.cfg.memSize ∨ last.toNat < first.toNat then .error .outOfRange
  else .ok ((List.range' first.toNat (last.toNat - first.toNat + 1)).map (lookupAt 0 s.mem))

/-! Run control (60_exceptions.md R431, R432, R434) and keyboard input (R414). -/

/-- `run()` of 60_exceptions.md R431: idempotent. -/
def run (s : State) : State := s.setRunning true

/-- `stop()` of 60_exceptions.md R432. -/
def stop (s : State) : State := s.setRunning false

/-- `evokeRunAtAddress(a16)` of 60_exceptions.md R434: `PC <- a`, then `run()`; nothing else changes. -/
def evokeRunAtAddress (a : Word) (s : State) : State := run { s with pc := a, written := s.written.mark .pc }

/-- `processInputChar(c8)` of 60_exceptions.md R414. Its writes are suppressed, so they are array writes alone. -/
def processInputChar (c : Byte) (s : State) : State :=
  if s.cfg.piaDropWhenDisabled && !s.latches.inputEnabled then s
  else
    let s1 := s.poke s.kbd (c ||| 0x80)
    let s2 := s1.poke s1.kbdcr (s1.peek s1.kbdcr ||| 0x80)
    s2.setLatches { s2.latches with inputAvailable := true }

/-! Commands and replies. -/

/-- The commands of 60_exceptions.md R430 on a constructed block; `Batch(n)` is `batchWith`
below. `suppressed` is `withWatchSuppressed(action)`, and `seq` lets its action be several commands (log entry 18). -/
inductive HostCommand where
  | cpuReset
  | busReset
  | piaReset
  | loadBulk (bytes : List Byte) (start : Word)
  | dumpRange (first last : Word)
  | readByte (a : Word)
  | writeByte (a : Word) (v : Byte)
  | readShort (a : Word)
  | readShortZeroPage (z : Byte)
  | addReadWatch (a : Word) (h : Nat)
  | addWriteWatch (a : Word) (h : Nat)
  | run
  | stop
  | processInputChar (c : Byte)
  | evokeRunAtAddress (a : Word)
  | suppressed (c : HostCommand)
  | seq (c d : HostCommand)
deriving DecidableEq, Repr

/-- What a command returns to the host. -/
inductive HostReply where
  | done
  | byte (v : Byte)
  | word (w : Word)
  | bytes (l : List Byte)
  | error (e : HostError)
  | refused
deriving DecidableEq, Repr

/-- A host direct bus access (20_memory.md R82, 60_exceptions.md R405): while `running` it has no effect and sets the
refusal mark. -/
def directAccess (access : State → HostReply × State) (s : State) : HostReply × State :=
  if s.running then (.refused, s.markRefused) else access s

/-- The effect and the reply of a host command, given between two steps (60_exceptions.md R430). -/
def command : HostCommand → State → HostReply × State
  | .cpuReset, s => (.done, Sys2Proof.Machine.cpuReset s)
  | .busReset, s => (.done, Sys2Proof.Machine.busReset s)
  | .piaReset, s => (.done, Sys2Proof.Machine.piaReset s)
  | .loadBulk bytes start, s =>
    directAccess (fun s => match Sys2Proof.Machine.loadBulk bytes start s with
      | .ok s' => (.done, s')
      | .error e => (.error e, s)) s
  | .dumpRange first last, s =>
    directAccess (fun s => match Sys2Proof.Machine.dumpRange first last s with
      | .ok l => (.bytes l, s)
      | .error e => (.error e, s)) s
  | .readByte a, s => directAccess (fun s => (.byte (s.memRead a).1, (s.memRead a).2)) s
  | .writeByte a v, s => directAccess (fun s => (.done, s.memWrite a v)) s
  | .readShort a, s => directAccess (fun s => (.word (s.readShort a).1, (s.readShort a).2)) s
  | .readShortZeroPage z, s =>
    directAccess (fun s => (.word (s.readShortZeroPage z).1, (s.readShortZeroPage z).2)) s
  | .addReadWatch a h, s => (.done, s.addReadWatch a (.ext h))
  | .addWriteWatch a h, s => (.done, s.addWriteWatch a (.ext h))
  | .run, s => (.done, Sys2Proof.Machine.run s)
  | .stop, s => (.done, Sys2Proof.Machine.stop s)
  | .processInputChar c, s => (.done, Sys2Proof.Machine.processInputChar c s)
  | .evokeRunAtAddress a, s => (.done, Sys2Proof.Machine.evokeRunAtAddress a s)
  | .suppressed c, s => ((command c (s.setSuppress true)).1, (command c (s.setSuppress true)).2.setSuppress s.suppress)
  | .seq c d, s => command d (command c s).2

/-! Batches and runs (60_exceptions.md R431, R433, R438). -/

/-- Whether an event is a Fault event (10_state.md R47). -/
def Event.isFault : Event → Bool
  | .fault _ _ _ => true
  | .outputChar _ | .watchFired _ _ _ _ => false

/-- The number of Fault events emitted so far; a step raises at most one (60_exceptions.md R406). -/
def State.faultCount (s : State) : Nat := s.trace.countP Event.isFault

/-- What `Batch(n)` returns (60_exceptions.md R433); `stuck` is the model's own, for a batch in which an access never
returns (log entry 5). -/
inductive BatchResult where
  | stopped
  | fault
  | yielded
  | stuck
deriving DecidableEq, Repr

/-- Host commands in order, between two steps; `none` if one of them never returns. -/
def giveAll : List HostCommand → State → Option State
  | [], s => some s
  | c :: cs, s =>
    match finish (command c s).2 with
    | .next s1 => giveAll cs s1
    | .fault _ | .refused _ => none

/-- One turn of the loop of `Batch(n)`: the commands the host gives before it. "Host commands may come between any two
steps" (60_exceptions.md R433). -/
abbrev Turn := List HostCommand

/-- `Batch(n)` of 60_exceptions.md R433, n the number of turns. A step returned `Fault` exactly when it emitted a Fault event
(log entry 14). -/
def batchWith : List Turn → State → BatchResult × State
  | [], s => (.yielded, s)
  | cs :: turns, s =>
    match giveAll cs s with
    | none => (.stuck, s.markDiverged)
    | some s1 =>
      if s1.running then
        match step s1 with
        | .next s2 => if s2.faultCount > s1.faultCount then (.fault, s2) else batchWith turns s2
        | .fault _ | .refused _ => (.stuck, s1.markDiverged)
      else (.stopped, s1)

/-- `Batch(n)` with no host command while it runs. -/
def batch (n : Nat) (s : State) : BatchResult × State := batchWith (List.replicate n []) s

/-- One call of the host scheduler: `Batch(BATCH_SIZE)` (60_exceptions.md R431). -/
def schedule (s : State) : BatchResult × State := batch s.cfg.batchSize s

/-- Whether every batch of a run is the scheduler's, `Batch(BATCH_SIZE)` (60_exceptions.md R431). -/
def scheduled (cfg : Config) (batches : List (List Turn)) : Bool := batches.all (·.length == cfg.batchSize)

/-- The end of a run (60_exceptions.md R438), "the first point where `Batch` returns with `running = false`", of a run made of
these batches one after another; the commands the host gives between two batches stand in the first turn of the later
one (log entry 21). `none` if the run has not ended, or a batch never returns. A batch of no turns is none at all (n >= 1, R433; log entry 14). -/
def runEnd : List (List Turn) → State → Option State
  | [], _ => none
  | [] :: batches, s => runEnd batches s
  | (cs :: turns) :: batches, s =>
    match batchWith (cs :: turns) s with
    | (.stuck, _) => none
    | (.stopped, t) | (.fault, t) | (.yielded, t) => if t.running then runEnd batches t else some t

/-- 60_exceptions.md R438, of the final state of a run: "good if no `Fault` event and no refusal mark is recorded". -/
def State.isGood (s : State) : Bool := s.faultCount == 0 && !s.refusalMark

/-- How a run stands (60_exceptions.md R438). -/
inductive RunStatus where
  | unfinished
  | good (final : State)
  | faulted (final : State)
deriving DecidableEq, Repr

/-- "The final state is good if no `Fault` event and no refusal mark is recorded, and faulted otherwise" (60_exceptions.md
R438). -/
def runStatus (batches : List (List Turn)) (s : State) : RunStatus :=
  match runEnd batches s with
  | none => .unfinished
  | some t => if t.isGood then .good t else .faulted t

/-- What happens next at the block: a step, a host command between two steps (60_exceptions.md R433, D41), or a batch. -/
inductive Action where
  | step
  | host (c : HostCommand)
  | batch (turns : List Turn)
deriving DecidableEq, Repr

/-- One action. Every interleaving of host commands and steps is a list of actions (70_reset_and_hazards.md R475). -/
def act (x : Action) (s : State) : Host.Outcome State Fault Refusal :=
  match x with
  | .step => Sys2Proof.Machine.step s
  | .host c => finish (command c s).2
  | .batch turns => finish (batchWith turns s).2

/-! Observers. -/

/-- What the observers of 60_exceptions.md R435 and R417 report; a register still unwritten is reported as such. -/
structure Observation where
  a : Option Byte
  x : Option Byte
  y : Option Byte
  sp : Option Byte
  pc : Option Word
  c : Option Bool
  z : Option Bool
  i : Option Bool
  d : Option Bool
  v : Option Bool
  n : Option Bool
  cycles : Option Cycles
  running : Bool
  inputEnabled : Bool
  inputAvailable : Bool
deriving DecidableEq, Repr

/-- The value of a register under its mark. -/
def reported {α : Type} (written : Bool) (v : α) : Option α := if written then some v else none

/-- The observers of 60_exceptions.md R435 and R417: they change nothing. -/
def observe (s : State) : Observation where
  a := reported s.written.a s.a
  x := reported s.written.x s.x
  y := reported s.written.y s.y
  sp := reported s.written.sp s.sp
  pc := reported s.written.pc s.pc
  c := reported s.written.c s.flags.c
  z := reported s.written.z s.flags.z
  i := reported s.written.i s.flags.i
  d := reported s.written.d s.flags.d
  v := reported s.written.v s.flags.v
  n := reported s.written.n s.flags.n
  cycles := reported s.written.cycles s.cycles
  running := s.running
  inputEnabled := s.latches.inputEnabled
  inputAvailable := s.latches.inputAvailable

end Sys2Proof.Machine
end

