-- ==== Sys2Proof/Safety.lean ====
section
/-! DEFINITION. The words the claims use: states in which an access surely returns, states and instructions for which no
handler runs, the addresses an instruction reads and stores to, and the invariant of the block. -/

namespace Sys2Proof

/-- A handler program whose own accesses, if any, are all made under suppression (20_memory.md R76), so that they run no
further handler. -/
def HandlerProg.busFree : HandlerProg → Bool
  | .done => true
  | .stop rest => rest.busFree
  | .memRead _ _ => false
  | .memWrite _ _ _ => false
  | .suppressed _ rest => rest.busFree
  | .addReadWatch _ _ rest => rest.busFree
  | .addWriteWatch _ _ rest => rest.busFree
  | .refusedCall _ rest => rest.busFree

end Sys2Proof

namespace Sys2Proof.Machine

/-- No host handler makes an unsuppressed access, so every access returns. The default ExtHandler, record-only
(00_scope.md R3), is of this kind, and so is a handler that stops the CPU. -/
abbrev State.Calm (s : State) : Prop :=
  s.diverged = false ∧ s.cfg.extHandler.all (fun r => r.prog.busFree) = true

/-- ExtHandler has its default: a host handler only records (00_scope.md R3, 20_memory.md R79). -/
abbrev State.RecordOnly (s : State) : Prop := s.diverged = false ∧ s.cfg.extHandler = []

/-- No handler runs for any access: suppression is on, or nothing is registered. -/
abbrev State.Silent (s : State) : Prop :=
  s.diverged = false ∧ (s.suppress = true ∨ (s.readWatch = [] ∧ s.writeWatch = []))

/-- No handler runs for a read of the address (20_memory.md R72). -/
abbrev State.quietRead (s : State) (a : Word) : Prop := s.suppress = true ∨ s.watchers .read a = []

/-- No handler runs for a write of the address (20_memory.md R73). -/
abbrev State.quietWrite (s : State) (a : Word) : Prop := s.suppress = true ∨ s.watchers .write a = []

/-- The pointer bytes a memory mode reads (30_encoding.md R122). -/
def pointerAddrs (m : MemMode) (s : State) : List Word :=
  match m with
  | .indx z => [zext (z + s.x), zext (z + s.x + 1)]
  | .indy z => [zext z, zext (z + 1)]
  | .zp _ | .zpx _ | .zpy _ | .abs _ | .absx _ | .absy _ => []

/-- The addresses an instruction reads, from the state after its operand fetch (30_encoding.md R124). -/
def readAddrs (i : Instr) (s : State) : List Word :=
  match i.mnemonic, i.operand with
  | .sta, .mem m | .stx, .mem m | .sty, .mem m => pointerAddrs m s
  | .jmp, .mem _ | .jsr, .mem _ => []
  | _, .mem m => (effectiveAddress m s).1 :: pointerAddrs m s
  | .jmp, .ind w => [w, indirectHigh s.cfg.jmpIndPageWrap w]
  | .pla, _ | .plp, _ => [stackAddr (s.sp + 1)]
  | .rts, _ => [stackAddr (s.sp + 1), stackAddr (s.sp + 1 + 1)]
  | .brk, _ => if s.cfg.enableBrkRti then [0xFFFE, 0xFFFF] else []
  | .rti, _ =>
    if s.cfg.enableBrkRti then [stackAddr (s.sp + 1), stackAddr (s.sp + 1 + 1), stackAddr (s.sp + 1 + 1 + 1)] else []
  | _, _ => []

/-- The addresses an instruction stores to, from the state after its operand fetch (30_encoding.md R124). -/
def storedAddrs (i : Instr) (s : State) : List Word :=
  match i.mnemonic, i.operand with
  | .sta, .mem m | .stx, .mem m | .sty, .mem m | .inc, .mem m | .dec, .mem m | .asl, .mem m | .lsr, .mem m
  | .rol, .mem m | .ror, .mem m => [(effectiveAddress m s).1]
  | .pha, _ | .php, _ => [stackAddr s.sp]
  | .jsr, _ => [stackAddr s.sp, stackAddr (s.sp - 1)]
  | .brk, _ => if s.cfg.enableBrkRti then [stackAddr s.sp, stackAddr (s.sp - 1), stackAddr (s.sp - 2)] else []
  | _, _ => []

/-- No handler runs for any access the instruction makes after its operand fetch. -/
def QuietFor (i : Instr) (s : State) : Prop :=
  (∀ a ∈ readAddrs i s, s.quietRead a) ∧ ∀ a ∈ storedAddrs i s, s.quietWrite a

/-- Whether a handler may stand in the read map at a key: the PIA's at the address it registered it for
(60_exceptions.md R411), a host handler anywhere. -/
def readPlaced (s : State) (k : Nat) : Handler → Bool
  | .ext _ => true
  | .kbdRead => k == s.kbd.toNat
  | .kbdcrWrite | .dspWrite | .dspcrWrite => false

/-- The same for the write map. -/
def writePlaced (s : State) (k : Nat) : Handler → Bool
  | .ext _ => true
  | .kbdRead => false
  | .kbdcrWrite => k == s.kbdcr.toNat
  | .dspWrite => k == s.dsp.toNat
  | .dspcrWrite => k == s.dspcr.toNat

/-- The invariant of the block. -/
structure Inv (s : State) : Prop where
  /-- MEM_SIZE is a size `init` accepts (20_memory.md R85). -/
  size : s.cfg.wf = true
  /-- The array is in canonical form. -/
  mem : Memory.wf s.mem
  /-- The array has no byte beyond MEM_SIZE (10_state.md R42). -/
  range : ∀ c ∈ s.mem, c.1 < s.cfg.memSize
  /-- The watch maps are in canonical form, keyed by 16-bit addresses (10_state.md R43). -/
  readWatch : WatchMap.wf s.readWatch ∧ ∀ p ∈ s.readWatch, p.1 < 65536
  writeWatch : WatchMap.wf s.writeWatch ∧ ∀ p ∈ s.writeWatch, p.1 < 65536
  /-- The PIA's handlers stand only where the PIA registered them (60_exceptions.md R411). -/
  readHome : ∀ p ∈ s.readWatch, ∀ h ∈ p.2, readPlaced s p.1 h = true
  writeHome : ∀ p ∈ s.writeWatch, ∀ h ∈ p.2, writePlaced s p.1 h = true
  /-- The PIA's registrations are permanent, and "the PIA handler runs before any host handler" (R411). -/
  kbdFirst : (s.watchers .read s.kbd).head? = some .kbdRead
  kbdcrFirst : (s.watchers .write s.kbdcr).head? = some .kbdcrWrite
  dspFirst : (s.watchers .write s.dsp).head? = some .dspWrite
  dspcrFirst : (s.watchers .write s.dspcr).head? = some .dspcrWrite
  /-- `cycles` is written only by CPU `reset()`, which writes every register (70_reset_and_hazards.md R460). -/
  written : s.written.cycles = true → s.written = .every true

/-- What no step takes back or changes: the parameters, suppression, the marks of PC and `cycles`; what it only adds to: the
other written marks, the trace, the watch lists, the refusal mark; and `running`, which a step clears and never sets. -/
structure StepKeeps (s t : State) : Prop where
  cfg : t.cfg = s.cfg
  suppress : t.suppress = s.suppress
  written : ∀ r, s.written.has r = true → t.written.has r = true
  pcWritten : t.written.pc = s.written.pc
  cyclesWritten : t.written.cycles = s.written.cycles
  running : t.running = true → s.running = true
  trace : s.trace <+: t.trace
  watchers : ∀ dir a, s.watchers dir a <+: t.watchers dir a
  refusalMark : s.refusalMark = true → t.refusalMark = true

/-- A host command that writes no CPU register: no `reset()`, no `evokeRunAtAddress` (60_exceptions.md R435). -/
def HostCommand.sparesCpu : HostCommand → Bool
  | .cpuReset | .evokeRunAtAddress _ => false
  | .busReset | .piaReset | .loadBulk _ _ | .dumpRange _ _ | .readByte _ | .writeByte _ _ | .readShort _
  | .readShortZeroPage _ | .addReadWatch _ _ | .addWriteWatch _ _ | .run | .stop | .processInputChar _ => true
  | .suppressed c => c.sparesCpu
  | .seq c d => c.sparesCpu && d.sparesCpu

/-- Bus accesses in order: a read of the address, or a write of a byte to it. -/
def runAccesses : List (Word × Option Byte) → State → State
  | [], s => s
  | (a, none) :: l, s => runAccesses l (s.afterRead a)
  | (a, some v) :: l, s => runAccesses l (s.memWrite a v)

/-- The array writes alone of the same accesses. -/
def pokeAll : List (Word × Option Byte) → State → State
  | [], s => s
  | (_, none) :: l, s => pokeAll l s
  | (a, some v) :: l, s => pokeAll l (s.poke a v)

/-- A host access of bytes or words, or several in order (20_memory.md R72 to R75). -/
def HostCommand.isAccess : HostCommand → Bool
  | .readByte _ | .writeByte _ _ | .readShort _ | .readShortZeroPage _ => true
  | .seq c d => c.isAccess && d.isAccess
  | .cpuReset | .busReset | .piaReset | .loadBulk _ _ | .dumpRange _ _ | .addReadWatch _ _ | .addWriteWatch _ _
  | .run | .stop | .processInputChar _ | .evokeRunAtAddress _ | .suppressed _ => false

/-- The array writes alone of such accesses. -/
def HostCommand.writesAlone : HostCommand → State → State
  | .writeByte a v, s => s.poke a v
  | .seq c d, s => d.writesAlone (c.writesAlone s)
  | _, s => s

/-- The result and the carry out of the four shift mnemonics as numbers, from the operand and the carry in
(43_shift_rotate.md); `none` for any other mnemonic. -/
def shiftedNumber : Mnemonic → Nat → Nat → Option (Nat × Nat)
  | .asl, v, _ => some (2 * v % 256, v / 128)
  | .lsr, v, _ => some (v / 2, v % 2)
  | .rol, v, c => some ((2 * v + c) % 256, v / 128)
  | .ror, v, c => some (v / 2 + 128 * c, v % 2)
  | _, _, _ => none

/-- The condition of each branch mnemonic on the flags (45_branch.md); `none` for any other mnemonic. -/
def branchCondition : Mnemonic → Flags → Option Bool
  | .bpl, f => some (!f.n)
  | .bmi, f => some f.n
  | .bvc, f => some (!f.v)
  | .bvs, f => some f.v
  | .bcc, f => some (!f.c)
  | .bcs, f => some f.c
  | .bne, f => some (!f.z)
  | .beq, f => some f.z
  | _, _ => none

/-- A packed decimal byte: both digits 0 to 9. -/
def isBcd (b : Byte) : Prop := b.toNat % 16 ≤ 9 ∧ b.toNat / 16 ≤ 9

/-- The number a packed decimal byte stands for. -/
def bcdValue (b : Byte) : Nat := b.toNat / 16 * 10 + b.toNat % 16

/-- The `cycles` column of 30_encoding.md R127 by mnemonic and mode: the base costs that R134 names, one for NOP. -/
def listedCost : Mnemonic → Mode → Nat
  | .nop, _ => 1
  | .jmp, .ind => 5
  | .jmp, _ => 3
  | .jsr, _ | .rts, _ | .rti, _ => 6
  | .brk, _ => 7
  | .pha, _ | .php, _ => 3
  | .pla, _ | .plp, _ => 4
  | .sta, .zp | .stx, .zp | .sty, .zp => 3
  | .sta, .absx | .sta, .absy => 5
  | .sta, .indx | .sta, .indy => 6
  | .inc, .zp | .dec, .zp | .asl, .zp | .lsr, .zp | .rol, .zp | .ror, .zp => 5
  | .inc, .absx | .dec, .absx | .asl, .absx | .lsr, .absx | .rol, .absx | .ror, .absx => 7
  | .inc, _ | .dec, _ | .asl, .zpx | .asl, .abs | .lsr, .zpx | .lsr, .abs | .rol, .zpx | .rol, .abs | .ror, .zpx
  | .ror, .abs => 6
  | _, .zp => 3
  | _, .zpx | _, .zpy | _, .abs | _, .absx | _, .absy => 4
  | _, .indx => 6
  | _, .indy => 5
  | _, _ => 2

/-- The byte values absent from the opcode table, as 30_encoding.md R128 lists them; 0x00 and 0x40 join them while
`ENABLE_BRK_RTI` is false. -/
def unmappedBytes : List Byte :=
  [0x02, 0x03, 0x04, 0x07, 0x0B, 0x0C, 0x0F, 0x12, 0x13, 0x14, 0x17, 0x1A, 0x1B, 0x1C, 0x1F,
   0x22, 0x23, 0x27, 0x2B, 0x2F, 0x32, 0x33, 0x34, 0x37, 0x3A, 0x3B, 0x3C, 0x3F, 0x42, 0x43,
   0x44, 0x47, 0x4B, 0x4F, 0x52, 0x53, 0x54, 0x57, 0x5A, 0x5B, 0x5C, 0x5F, 0x62, 0x63, 0x64,
   0x67, 0x6B, 0x6F, 0x72, 0x73, 0x74, 0x77, 0x7A, 0x7B, 0x7C, 0x7F, 0x80, 0x82, 0x83, 0x87,
   0x89, 0x8B, 0x8F, 0x92, 0x93, 0x97, 0x9B, 0x9C, 0x9E, 0x9F, 0xA3, 0xA7, 0xAB, 0xAF, 0xB2,
   0xB3, 0xB7, 0xBB, 0xBF, 0xC2, 0xC3, 0xC7, 0xCB, 0xCF, 0xD2, 0xD3, 0xD4, 0xD7, 0xDA, 0xDB,
   0xDC, 0xDF, 0xE2, 0xE3, 0xE7, 0xEB, 0xEF, 0xF2, 0xF3, 0xF4, 0xF7, 0xFA, 0xFB, 0xFC, 0xFF]

/-- The forms a mnemonic has: each mode with its opcode byte (30_encoding.md R127), no other and none missing. -/
def HasForms (mn : Mnemonic) (forms : List (Mode × Byte)) : Prop :=
  (∀ i : Instr, i.mnemonic = mn → (i.operand.mode, i.opcode) ∈ forms) ∧
    ∀ f ∈ forms, ∃ i : Instr, i.mnemonic = mn ∧ (i.operand.mode, i.opcode) = f

end Sys2Proof.Machine
end

