-- ==== Sys2Proof/Certificates/Slice0/Obligations.lean ====
section
/-! DEFINITION. The statements for the provers: what each instruction and the machine does, from the numbered rules of spec/.
`Calm`, `Silent`, `QuietFor`, `RecordOnly`, `Inv`, `StepKeeps`, `HasForms` and the other words used are those of Safety.lean. -/

open Sys2Proof Sys2Proof.Machine

/-- For every configuration and every instruction well-formed under it, decoding its encoding followed by any bytes
gives the instruction and those bytes, with every operand at every value.
Derived from R121, R127, R131. -/
def Obligations.DecodeEncodeRoundTrip : Prop :=
  ∀ (cfg : Config) (i : Instr) (rest : List Byte), i.wf cfg = true →
    decode cfg.enableBrkRti (encode i ++ rest) = .ok (i, rest)

/-- If a byte sequence decodes to an instruction and a rest, the sequence is the encoding of the instruction followed
by the rest, the instruction has the length of its encoding, and it is well-formed under the configuration.
Derived from R120, R121, R131. -/
def Obligations.DecodedBytesAreTheEncoding : Prop :=
  ∀ (cfg : Config) (bytes rest : List Byte) (i : Instr), decode cfg.enableBrkRti bytes = .ok (i, rest) →
    bytes = encode i ++ rest ∧ (encode i).length = i.length ∧ i.length ≤ 3 ∧ i.wf cfg = true

/-- Nine words of the opcode table, written out from the spec, decode to the instructions they stand for.
Derived from R127, R121. -/
def Obligations.WrittenOutWordsDecode : Prop :=
  decodeTableWord 16 0x05A9 = some (.ldaImm 0x05) ∧ decodeTableWord 24 0x02008D = some (.staAbs 0x0200) ∧
    decodeTableWord 16 0x5071 = some (.adcIndy 0x50) ∧ decodeTableWord 24 0x0300FE = some (.incAbsx 0x0300) ∧
    decodeTableWord 8 0x2A = some .rolAcc ∧ decodeTableWord 24 0xD0122C = some (.bitAbs 0xD012) ∧
    decodeTableWord 16 0xFED0 = some (.bne 0xFE) ∧ decodeTableWord 8 0x28 = some .plp ∧
    decodeTableWord 24 0x12FF6C = some (.jmpInd 0x12FF)

/-- Assembling the mnemonic and operand of an instruction gives it back; a branch assembles exactly when its target is
-128 to 127 from the address after it, and then the displacement reaches the target modulo 2^16.
Derived from R132, R127. -/
def Obligations.AssemblerFindsInstructionAndBranch : Prop :=
  (∀ i : Instr, assemble i.mnemonic i.operand = some i) ∧
    ∀ (addr target : Word),
      ((assembleBranch addr target).isSome = true ↔
        -128 ≤ (target.toNat : Int) - (addr.toNat + 2) ∧ (target.toNat : Int) - (addr.toNat + 2) ≤ 127) ∧
      ∀ d, assembleBranch addr target = some d → branchTarget addr d = target

/-- While running with every register written: if the opcode at PC has a format, the step is exec of the instruction
its operand fetch reads, on the state after that fetch; and where no handler runs for the fetch, if the three bytes at
PC decode to i, the step is exec i on the state with PC moved past i.
Derived from R130, R35, R131. -/
def Obligations.StepRunsDecodedInstruction : Prop :=
  (∀ (s : State) (f : Form), s.running = true → s.written = .every true →
      decodeOpcode s.cfg.enableBrkRti (s.peek s.pc) = some f →
      step s = exec (fetchOperand f ((s.afterRead s.pc).setPc (s.pc + 1))).1
        (fetchOperand f ((s.afterRead s.pc).setPc (s.pc + 1))).2) ∧
    ∀ (s : State) (i : Instr) (rest : List Byte), s.running = true → s.written = .every true →
      s.quietRead s.pc → s.quietRead (s.pc + 1) → s.quietRead (s.pc + 2) →
      decode s.cfg.enableBrkRti [s.peek s.pc, s.peek (s.pc + 1), s.peek (s.pc + 2)] = .ok (i, rest) →
      step s = exec i { s with pc := s.pc + BitVec.ofNat 16 i.length }

/-- A running step that fetches an unmapped byte (one of the 105 of R128, or 0x00 or 0x40 with ENABLE_BRK_RTI false)
leaves PC at the opcode, clears running, appends the Fault event, keeps A, X, Y, SP, the flags and cycles, keeps the
effects of the fetch handlers, and ends a batch with Fault; after another run() with the byte still there, the next
step faults the same way.
Formalises R401. -/
def Obligations.UnmappedOpcodeRaises : Prop :=
  ∀ (s : State) (n : Nat), s.Calm → s.running = true → s.written.pc = true →
    s.peek s.pc ∈ unmappedBytes ∨ (s.cfg.enableBrkRti = false ∧ (s.peek s.pc = 0x00 ∨ s.peek s.pc = 0x40)) →
    ∃ t, step s = .next t ∧ batch (n + 1) s = (.fault, t) ∧
      t = { s.afterRead s.pc with
            pc := s.pc, running := false,
            trace := (s.afterRead s.pc).trace ++ [.fault .unimplementedOpcode (some (s.peek s.pc)) (some s.pc)] } ∧
      t.a = s.a ∧ t.x = s.x ∧ t.y = s.y ∧ t.sp = s.sp ∧ t.flags = s.flags ∧ t.cycles = s.cycles ∧ t.cfg = s.cfg ∧
      (t.peek s.pc = s.peek s.pc → ∃ u events, step (command .run t).2 = .next u ∧ u.pc = s.pc ∧ u.running = false ∧
        u.trace = t.trace ++ events ++ [.fault .unimplementedOpcode (some (s.peek s.pc)) (some s.pc)])

/-- Before the first CPU reset no instruction completes: it stops with UndefinedRegisterRead at its first read of an
unwritten register in the order of its rule, with the accesses before that read made, and at the latest at the read of
cycles (R404, R406, R130). LDA, LDX, LDY, INC, DEC, ASL and LSR on zp and abs and JMP indirect read no other register.
That cycles is read at the end, and that the fault is precise, is the model's reading (log entry 2); what is recorded
for an unwritten PC is its choice (log entry 4).
Derived from R404, R406, R6, R130. -/
def Obligations.UnwrittenRegisterRaises : Prop :=
  (∀ (s : State) (f : Form), s.Calm → s.running = true → s.written.pc = true → s.written.cycles = false →
      decodeOpcode s.cfg.enableBrkRti (s.peek s.pc) = some f →
      ∃ t events, step s = .next t ∧ t.running = false ∧
        t.trace = s.trace ++ events ++ [.fault .undefinedRegisterRead (some (s.peek s.pc)) (some s.pc)] ∧
        t.cycles = s.cycles ∧ t.written.cycles = false ∧
        step s = execute (s.peek s.pc) s.pc (fetchOperand f ((s.afterRead s.pc).setPc (s.pc + 1))).1
          (fetchOperand f ((s.afterRead s.pc).setPc (s.pc + 1))).2) ∧
    (∀ (i : Instr) (s : State) (op : Byte) (pc0 : Word), s.Calm → s.written.cycles = false →
      let stop (t : State) : State := { t with
        running := false, trace := t.trace ++ [.fault .undefinedRegisterRead (some op) (some pc0)] }
      (∀ m, i.operand = .mem m →
        let ea := (effectiveAddress m s).1
        let s1 := (effectiveAddress m s).2
        (s.written.covers (indexReads m) = false → execute op pc0 i s = .next (stop s)) ∧
        (s.written.covers (indexReads m) = true →
          (s.written.covers (lateIndexReads m) = false → execute op pc0 i s = .next (stop s1)) ∧
          (s.written.covers (lateIndexReads m) = true → s.written.covers (ruleReads i.mnemonic) = false →
            (i.mnemonic ∈ [Mnemonic.sta, .stx, .sty] → execute op pc0 i s = .next (stop s1)) ∧
            (i.mnemonic ∈ [Mnemonic.adc, .sbc, .and, .ora, .eor, .cmp, .cpx, .cpy, .bit, .rol, .ror] →
              execute op pc0 i s = .next (stop (s1.afterRead ea))))) ∧
        (i.mnemonic ∈ [Mnemonic.lda, .ldx, .ldy, .inc, .dec, .asl, .lsr] → m.mode = .zp ∨ m.mode = .abs →
          firstUnwritten i s = none)) ∧
      (s.written.covers (ruleReads i.mnemonic) = false →
        (∀ m, i.operand ≠ .mem m) ∨ i.mnemonic = .jsr → execute op pc0 i s = .next (stop s)) ∧
      (i.operand = .acc → s.written.a = false → execute op pc0 i s = .next (stop s)) ∧
      (i = .brk → s.written.sp = true → s.written.covers flagRegs = false →
        execute op pc0 i s = .next (stop (pushWord (s.pc + 1) s))) ∧
      (∀ w, firstUnwritten (.jmpInd w) s = none) ∧
      (firstUnwritten i s = none → ∃ t, exec i s = .next t ∧ execute op pc0 i s = .next (stop { t with
        cycles := s.cycles, written := (destinations i).foldl Written.mark s.written }))) ∧
    ∀ s : State, s.diverged = false → s.running = true → s.written.pc = false →
      step s = .next { s with running := false, trace := s.trace ++ [.fault .undefinedRegisterRead none none] }

/-- The effective address of each memory mode and of JMP indirect as a number, the pointer bytes read low first
through the bus, the branch target, and the operand value of acc, imm and memory modes.
Derived from R122, R123, R75. -/
def Obligations.EffectiveAddressesFollowTable : Prop :=
  ∀ s : State,
    (∀ z, effectiveAddress (.zp z) s = (BitVec.ofNat 16 z.toNat, s)) ∧
    (∀ z, effectiveAddress (.zpx z) s = (BitVec.ofNat 16 ((z.toNat + s.x.toNat) % 256), s)) ∧
    (∀ z, effectiveAddress (.zpy z) s = (BitVec.ofNat 16 ((z.toNat + s.y.toNat) % 256), s)) ∧
    (∀ w, effectiveAddress (.abs w) s = (w, s)) ∧
    (∀ w, effectiveAddress (.absx w) s = (BitVec.ofNat 16 ((w.toNat + s.x.toNat) % 65536), s)) ∧
    (∀ w, effectiveAddress (.absy w) s = (BitVec.ofNat 16 ((w.toNat + s.y.toNat) % 65536), s)) ∧
    (∀ z, let lo := BitVec.ofNat 16 ((z.toNat + s.x.toNat) % 256)
      let hi := BitVec.ofNat 16 ((z.toNat + s.x.toNat + 1) % 256)
      effectiveAddress (.indx z) s =
        (BitVec.ofNat 16 (((s.afterRead lo).peek hi).toNat * 256 + (s.peek lo).toNat), (s.afterRead lo).afterRead hi)) ∧
    (∀ z, let lo := BitVec.ofNat 16 z.toNat
      let hi := BitVec.ofNat 16 ((z.toNat + 1) % 256)
      effectiveAddress (.indy z) s =
        (BitVec.ofNat 16 ((((s.afterRead lo).peek hi).toNat * 256 + (s.peek lo).toNat + s.y.toNat) % 65536),
          (s.afterRead lo).afterRead hi)) ∧
    (∀ w, let hi := BitVec.ofNat 16 (if s.cfg.jmpIndPageWrap then w.toNat / 256 * 256 + (w.toNat + 1) % 256
        else (w.toNat + 1) % 65536)
      indirectTarget w s =
        (BitVec.ofNat 16 (((s.afterRead w).peek hi).toNat * 256 + (s.peek w).toNat), (s.afterRead w).afterRead hi)) ∧
    (∀ d, branch true d s =
      { s with pc := BitVec.ofInt 16 (s.pc.toNat + d.toInt) }) ∧
    operandValue .acc s = some (s.a, s) ∧ (∀ v, operandValue (.imm v) s = some (v, s)) ∧
    ∀ m, operandValue (.mem m) s = some ((effectiveAddress m s).2.memRead (effectiveAddress m s).1)

/-- LDA, LDX and LDY in every form complete: the register takes M, Z is set when M is 0, N is bit 7 of M, cycles gain
the cost, and everything else is as the operand access left it.
Formalises R200, R201, R202. -/
def Obligations.LoadsWriteRegisterAndNZ : Prop :=
  (HasForms .lda
    [(.imm, 0xA9), (.zp, 0xA5), (.zpx, 0xB5), (.abs, 0xAD), (.absx, 0xBD), (.absy, 0xB9), (.indx, 0xA1),
     (.indy, 0xB1)]) ∧
  (HasForms .ldx
    [(.imm, 0xA2), (.zp, 0xA6), (.zpy, 0xB6), (.abs, 0xAE), (.absy, 0xBE)]) ∧
  (HasForms .ldy
    [(.imm, 0xA0), (.zp, 0xA4), (.zpx, 0xB4), (.abs, 0xAC), (.absx, 0xBC)]) ∧
  ∀ (i : Instr) (s : State), s.Calm → i.mnemonic = .lda ∨ i.mnemonic = .ldx ∨ i.mnemonic = .ldy →
    ∃ m s1, operandValue i.operand s = some (m, s1) ∧
      exec i s = .next { s1 with
        a := if i.mnemonic = .lda then m else s.a
        x := if i.mnemonic = .ldx then m else s.x
        y := if i.mnemonic = .ldy then m else s.y
        flags := { s.flags with z := decide (m = 0), n := m.getLsbD 7 }
        cycles := s.cycles + cycleCostOf s.cfg i.opcode }

/-- STA, STX and STY in every form complete: one bus write of the register at the effective address after the pointer
reads, no read there, no flag or register written, cycles gain the cost.
Formalises R203, R204, R205. -/
def Obligations.StoresWriteRegisterToMemory : Prop :=
  (HasForms .sta
    [(.zp, 0x85), (.zpx, 0x95), (.abs, 0x8D), (.absx, 0x9D), (.absy, 0x99), (.indx, 0x81), (.indy, 0x91)]) ∧
  (HasForms .stx
    [(.zp, 0x86), (.zpy, 0x96), (.abs, 0x8E)]) ∧
  (HasForms .sty
    [(.zp, 0x84), (.zpx, 0x94), (.abs, 0x8C)]) ∧
  ∀ (i : Instr) (s : State), s.Calm → i.mnemonic = .sta ∨ i.mnemonic = .stx ∨ i.mnemonic = .sty →
    ∃ m, i.operand = .mem m ∧
      exec i s = .next { (effectiveAddress m s).2.memWrite (effectiveAddress m s).1
          (if i.mnemonic = .sta then s.a else if i.mnemonic = .stx then s.x else s.y) with
        cycles := s.cycles + cycleCostOf s.cfg i.opcode }

/-- ADC in every form completes: with D clear the accumulator, C, Z, V and N are those of the 9-bit sum and of the
signed sum out of range; with D set they are those of AddDec; nothing else changes.
Formalises R223, R220. -/
def Obligations.AdcAddsWithCarry : Prop :=
  (HasForms .adc
    [(.imm, 0x69), (.zp, 0x65), (.zpx, 0x75), (.abs, 0x6D), (.absx, 0x7D), (.absy, 0x79), (.indx, 0x61),
     (.indy, 0x71)]) ∧
  ∀ (i : Instr) (s : State), s.Calm → i.mnemonic = .adc →
    ∃ m s1, operandValue i.operand s = some (m, s1) ∧
      let sum := s.a.toNat + m.toNat + (if s.flags.c then 1 else 0)
      let signed : Int := s.a.toInt + m.toInt + (if s.flags.c then 1 else 0)
      let dec := addDec s.a m s.flags.c
      (s.flags.d = false → exec i s = .next { s1 with
        a := BitVec.ofNat 8 sum
        flags := { s.flags with
          c := decide (sum > 255), z := decide (sum % 256 = 0), v := decide (signed < -128 ∨ 127 < signed),
          n := decide (128 ≤ sum % 256) }
        cycles := s.cycles + cycleCostOf s.cfg i.opcode }) ∧
      (s.flags.d = true → exec i s = .next { s1 with
        a := dec.1
        flags := { s.flags with c := dec.2.1, z := dec.2.2.1, v := dec.2.2.2.1, n := dec.2.2.2.2 }
        cycles := s.cycles + cycleCostOf s.cfg i.opcode })

/-- SBC in every form completes: C, V, N and Z are those of the binary difference; the accumulator is that difference
with D clear and SubDec with D set; nothing else changes. With D clear the result and flags are those of ADC of the
one's complement.
Formalises R224. -/
def Obligations.SbcSubtractsWithBorrow : Prop :=
  (HasForms .sbc
    [(.imm, 0xE9), (.zp, 0xE5), (.zpx, 0xF5), (.abs, 0xED), (.absx, 0xFD), (.absy, 0xF9), (.indx, 0xE1),
     (.indy, 0xF1)]) ∧
  ∀ (i : Instr) (s : State), s.Calm → i.mnemonic = .sbc →
    ∃ m s1, operandValue i.operand s = some (m, s1) ∧
      let diff : Int := s.a.toNat - m.toNat - (if s.flags.c then 0 else 1)
      let signed : Int := s.a.toInt - m.toInt - (if s.flags.c then 0 else 1)
      exec i s = .next { s1 with
        a := if s.flags.d then subDec s.a m s.flags.c else BitVec.ofInt 8 diff
        flags := { s.flags with
          c := decide (0 ≤ diff), z := decide (diff % 256 = 0), v := decide (signed < -128 ∨ 127 < signed),
          n := decide (128 ≤ diff % 256) }
        cycles := s.cycles + cycleCostOf s.cfg i.opcode } ∧
      (s.flags.d = false → sbcAlu s.a m s.flags = adcAlu s.a (~~~ m) s.flags)

/-- AddDec and SubDec equal the algorithms of R221 and R222 written over the numbers of the two digits, for every byte
value, non-BCD digits among them; V is also the signed sum of the digits out of range.
Formalises R221, R222. -/
def Obligations.DecimalAdjustFollowsAlgorithm : Prop :=
  ∀ (a b : Byte) (c : Bool),
    (let c0 := if c then 1 else 0
     let al0 := a.toNat % 16 + b.toNat % 16 + c0
     let al := if al0 ≥ 10 then (al0 + 6) % 16 + 16 else al0
     let s0 := a.toNat / 16 * 16 + b.toNat / 16 * 16 + al
     let s1 := if s0 ≥ 160 then s0 + 96 else s0
     addDec a b c = (BitVec.ofNat 8 s1, decide (s1 ≥ 256), decide ((a.toNat + b.toNat + c0) % 256 = 0),
      decide ((128 ≤ a.toNat) = (128 ≤ b.toNat) ∧ (128 ≤ a.toNat) ≠ (128 ≤ s0 % 256)), decide (128 ≤ s0 % 256)) ∧
      (addDec a b c).2.2.2.1 = decide ((a &&& 0xF0).toInt + (b &&& 0xF0).toInt + al < -128 ∨
        127 < (a &&& 0xF0).toInt + (b &&& 0xF0).toInt + al)) ∧
    (let c0 : Int := if c then 1 else 0
     let al0 : Int := (a.toNat % 16 : Nat) - (b.toNat % 16 : Nat) + c0 - 1
     let al := if al0 < 0 then (al0 - 6) % 16 - 16 else al0
     let s0 : Int := (a.toNat / 16 * 16 : Nat) - (b.toNat / 16 * 16 : Nat) + al
     let s1 := if s0 < 0 then s0 - 96 else s0
     subDec a b c = BitVec.ofInt 8 s1)

/-- For packed decimal operands, AddDec answers the decimal sum modulo 100 with its carry, and SubDec the decimal
difference modulo 100, each a packed decimal byte.
Derived from R221, R222, R223, R224. -/
def Obligations.DecimalArithmeticIsRight : Prop :=
  ∀ (a b : Byte) (c : Bool), isBcd a → isBcd b →
    isBcd (addDec a b c).1 ∧ isBcd (subDec a b c) ∧
    bcdValue (addDec a b c).1 + (if (addDec a b c).2.1 then 100 else 0) =
      bcdValue a + bcdValue b + (if c then 1 else 0) ∧
    (bcdValue (subDec a b c) : Int) = ((bcdValue a : Int) - bcdValue b - (if c then 0 else 1)) % 100

/-- INC and DEC in every form complete: one read at EA, then one write of the value read plus or minus one modulo 256,
N and Z from it, C and V kept; the value written is computed from the value the read returned.
Formalises R240, R241. -/
def Obligations.IncDecMemory : Prop :=
  (HasForms .inc
    [(.zp, 0xE6), (.zpx, 0xF6), (.abs, 0xEE), (.absx, 0xFE)]) ∧
  (HasForms .dec
    [(.zp, 0xC6), (.zpx, 0xD6), (.abs, 0xCE), (.absx, 0xDE)]) ∧
  ∀ (i : Instr) (s : State), s.Calm → i.mnemonic = .inc ∨ i.mnemonic = .dec →
    ∃ m, i.operand = .mem m ∧
      let ea := (effectiveAddress m s).1
      let s1 := (effectiveAddress m s).2
      let r := BitVec.ofNat 8 ((s1.peek ea).toNat + (if i.mnemonic = .inc then 1 else 255))
      exec i s = .next { (s1.afterRead ea).memWrite ea r with
        flags := { s.flags with z := decide (r = 0), n := r.getLsbD 7 }
        cycles := s.cycles + cycleCostOf s.cfg i.opcode }

/-- INX, INY, DEX and DEY complete: the index register gains or loses one modulo 256, N and Z from the result, nothing
else but cycles.
Formalises R242, R243, R244, R245. -/
def Obligations.IncDecRegisters : Prop :=
  (HasForms .inx
    [(.imp, 0xE8)]) ∧
  (HasForms .iny
    [(.imp, 0xC8)]) ∧
  (HasForms .dex
    [(.imp, 0xCA)]) ∧
  (HasForms .dey
    [(.imp, 0x88)]) ∧
  ∀ (i : Instr) (s : State), s.Calm → i ∈ [Instr.inx, .iny, .dex, .dey] →
    let r := BitVec.ofNat 8 ((if i = .inx ∨ i = .dex then s.x else s.y).toNat + (if i = .inx ∨ i = .iny then 1 else 255))
    exec i s = .next { s with
      x := if i = .inx ∨ i = .dex then r else s.x
      y := if i = .iny ∨ i = .dey then r else s.y
      flags := { s.flags with z := decide (r = 0), n := r.getLsbD 7 }
      cycles := s.cycles + cycleCostOf s.cfg i.opcode }

/-- The four shifts complete in every form: the result and the carry out are those of the numbers, the old carry
enters ROL and ROR only, N and Z are from the result, V is kept; a memory form reads once and writes once at EA.
Formalises R260, R261, R262, R263. -/
def Obligations.ShiftsAndRotates : Prop :=
  (HasForms .asl
    [(.acc, 0x0A), (.zp, 0x06), (.zpx, 0x16), (.abs, 0x0E), (.absx, 0x1E)]) ∧
  (HasForms .lsr
    [(.acc, 0x4A), (.zp, 0x46), (.zpx, 0x56), (.abs, 0x4E), (.absx, 0x5E)]) ∧
  (HasForms .rol
    [(.acc, 0x2A), (.zp, 0x26), (.zpx, 0x36), (.abs, 0x2E), (.absx, 0x3E)]) ∧
  (HasForms .ror
    [(.acc, 0x6A), (.zp, 0x66), (.zpx, 0x76), (.abs, 0x6E), (.absx, 0x7E)]) ∧
  ∀ (i : Instr) (s : State), s.Calm → i.mnemonic ∈ [Mnemonic.asl, .lsr, .rol, .ror] →
    (i.operand = .acc → ∃ r c, shiftedNumber i.mnemonic s.a.toNat (if s.flags.c then 1 else 0) = some (r, c) ∧
      exec i s = .next { s with
        a := BitVec.ofNat 8 r
        flags := { s.flags with c := decide (c = 1), z := decide (r = 0), n := decide (128 ≤ r) }
        cycles := s.cycles + cycleCostOf s.cfg i.opcode }) ∧
    ∀ m, i.operand = .mem m →
      let ea := (effectiveAddress m s).1
      let s1 := (effectiveAddress m s).2
      ∃ r c, shiftedNumber i.mnemonic (s1.peek ea).toNat (if s.flags.c then 1 else 0) = some (r, c) ∧
      exec i s = .next { (s1.afterRead ea).memWrite ea (BitVec.ofNat 8 r) with
        flags := { s.flags with c := decide (c = 1), z := decide (r = 0), n := decide (128 ≤ r) }
        cycles := s.cycles + cycleCostOf s.cfg i.opcode }

/-- AND, ORA and EOR in every form complete: the accumulator takes the bitwise result, N and Z are from it, nothing
else changes but what the operand access did and cycles.
Formalises R280, R281, R282. -/
def Obligations.LogicOperations : Prop :=
  (HasForms .and
    [(.imm, 0x29), (.zp, 0x25), (.zpx, 0x35), (.abs, 0x2D), (.absx, 0x3D), (.absy, 0x39), (.indx, 0x21),
     (.indy, 0x31)]) ∧
  (HasForms .ora
    [(.imm, 0x09), (.zp, 0x05), (.zpx, 0x15), (.abs, 0x0D), (.absx, 0x1D), (.absy, 0x19), (.indx, 0x01),
     (.indy, 0x11)]) ∧
  (HasForms .eor
    [(.imm, 0x49), (.zp, 0x45), (.zpx, 0x55), (.abs, 0x4D), (.absx, 0x5D), (.absy, 0x59), (.indx, 0x41),
     (.indy, 0x51)]) ∧
  ∀ (i : Instr) (s : State), s.Calm → i.mnemonic ∈ [Mnemonic.and, .ora, .eor] →
    ∃ m s1, operandValue i.operand s = some (m, s1) ∧
      let r := if i.mnemonic = .and then s.a &&& m else if i.mnemonic = .ora then s.a ||| m else s.a ^^^ m
      exec i s = .next { s1 with
        a := r
        flags := { s.flags with z := decide (r = 0), n := r.getLsbD 7 }
        cycles := s.cycles + cycleCostOf s.cfg i.opcode }

/-- CMP, CPX and CPY in every form complete: C is register at least M unsigned, Z is equality, N is bit 7 of the
difference modulo 256; V and every register are kept, and C is not read.
Formalises R283, R284, R285, R286. -/
def Obligations.ComparesSetFlags : Prop :=
  (HasForms .cmp
    [(.imm, 0xC9), (.zp, 0xC5), (.zpx, 0xD5), (.abs, 0xCD), (.absx, 0xDD), (.absy, 0xD9), (.indx, 0xC1),
     (.indy, 0xD1)]) ∧
  (HasForms .cpx
    [(.imm, 0xE0), (.zp, 0xE4), (.abs, 0xEC)]) ∧
  (HasForms .cpy
    [(.imm, 0xC0), (.zp, 0xC4), (.abs, 0xCC)]) ∧
  ∀ (i : Instr) (s : State), s.Calm → i.mnemonic ∈ [Mnemonic.cmp, .cpx, .cpy] →
    ∃ m s1, operandValue i.operand s = some (m, s1) ∧
      let r := if i.mnemonic = .cmp then s.a else if i.mnemonic = .cpx then s.x else s.y
      exec i s = .next { s1 with
        flags := { s.flags with
          c := decide (m.toNat ≤ r.toNat), z := decide (r.toNat = m.toNat),
          n := decide (128 ≤ ((r.toNat : Int) - m.toNat) % 256) }
        cycles := s.cycles + cycleCostOf s.cfg i.opcode }

/-- BIT in both forms completes: Z is set when A and M share no bit, N and V are bits 7 and 6 of M, A and C are kept.
Formalises R287. -/
def Obligations.BitTestsMemory : Prop :=
  (HasForms .bit
    [(.zp, 0x24), (.abs, 0x2C)]) ∧
  ∀ (i : Instr) (s : State), s.Calm → i.mnemonic = .bit →
    ∃ m s1, operandValue i.operand s = some (m, s1) ∧
      exec i s = .next { s1 with
        flags := { s.flags with
          z := (List.range 8).all (fun k => !(s.a.getLsbD k && m.getLsbD k)),
          n := decide (128 ≤ m.toNat), v := decide (64 ≤ m.toNat % 128) }
        cycles := s.cycles + cycleCostOf s.cfg i.opcode }

/-- Each of the eight branches completes: PC gains the signed displacement modulo 2^16 when the condition of its
mnemonic holds, and stays otherwise; no flag, register or memory changes; cycles gain the same cost either way.
Formalises R300, R301, R302, R303, R304, R305, R306, R307, R308. -/
def Obligations.BranchesFollowTheirFlag : Prop :=
  (HasForms .bpl
    [(.rel, 0x10)]) ∧
  (HasForms .bmi
    [(.rel, 0x30)]) ∧
  (HasForms .bvc
    [(.rel, 0x50)]) ∧
  (HasForms .bvs
    [(.rel, 0x70)]) ∧
  (HasForms .bcc
    [(.rel, 0x90)]) ∧
  (HasForms .bcs
    [(.rel, 0xB0)]) ∧
  (HasForms .bne
    [(.rel, 0xD0)]) ∧
  (HasForms .beq
    [(.rel, 0xF0)]) ∧
  ∀ (i : Instr) (s : State) (d : Byte), s.Calm → i.operand = .rel d →
    ∃ cond, branchCondition i.mnemonic s.flags = some cond ∧
      exec i s = .next { s with
        pc := if cond then BitVec.ofInt 16 (s.pc.toNat + d.toInt) else s.pc
        cycles := s.cycles + cycleCostOf s.cfg i.opcode } ∧
      (s.cfg.cycleCost = [] → cycleCostOf s.cfg i.opcode = 2)

/-- TAX, TXA, TAY, TYA, TSX and TXS complete: the destination takes the source, N and Z are set from it except by TXS,
nothing else changes but cycles.
Formalises R320, R321, R322, R323, R324, R325. -/
def Obligations.TransfersCopyRegisters : Prop :=
  (HasForms .tax
    [(.imp, 0xAA)]) ∧
  (HasForms .txa
    [(.imp, 0x8A)]) ∧
  (HasForms .tay
    [(.imp, 0xA8)]) ∧
  (HasForms .tya
    [(.imp, 0x98)]) ∧
  (HasForms .tsx
    [(.imp, 0xBA)]) ∧
  (HasForms .txs
    [(.imp, 0x9A)]) ∧
  ∀ (i : Instr) (s : State), s.Calm → i ∈ [Instr.tax, .txa, .tay, .tya, .tsx, .txs] →
    let v := if i = .tax ∨ i = .tay then s.a else if i = .txa ∨ i = .txs then s.x else if i = .tya then s.y else s.sp
    exec i s = .next { s with
      a := if i = .txa ∨ i = .tya then v else s.a
      x := if i = .tax ∨ i = .tsx then v else s.x
      y := if i = .tay then v else s.y
      sp := if i = .txs then v else s.sp
      flags := if i = .txs then s.flags else { s.flags with z := decide (v = 0), n := v.getLsbD 7 }
      cycles := s.cycles + cycleCostOf s.cfg i.opcode }

/-- PHA and PHP complete: one bus write at 0x0100 + SP of A or of the status byte (N V, PHP_BITS54, D I Z C from bit 7
down), then SP loses one modulo 256; no flag changes. UnpackP takes the six flags from bits 7, 6, 3, 2, 1 and 0 of a
status byte and ignores bits 5 and 4.
Formalises R326, R327, R37, R38. -/
def Obligations.PushesWriteStackSlot : Prop :=
  (HasForms .pha
    [(.imp, 0x48)]) ∧
  (HasForms .php
    [(.imp, 0x08)]) ∧
  (∀ p : Byte, unpackP p =
    { n := p.getLsbD 7, v := p.getLsbD 6, d := p.getLsbD 3, i := p.getLsbD 2, z := p.getLsbD 1, c := p.getLsbD 0 }) ∧
  ∀ (i : Instr) (s : State), s.Calm → i = .pha ∨ i = .php →
    let status := BitVec.ofNat 8 ((if s.flags.n then 128 else 0) + (if s.flags.v then 64 else 0) +
      s.cfg.phpBits54.toNat * 16 + (if s.flags.d then 8 else 0) + (if s.flags.i then 4 else 0) +
      (if s.flags.z then 2 else 0) + (if s.flags.c then 1 else 0))
    exec i s = .next { s.memWrite (BitVec.ofNat 16 (256 + s.sp.toNat)) (if i = .pha then s.a else status) with
      sp := BitVec.ofNat 8 (s.sp.toNat + 255)
      cycles := s.cycles + cycleCostOf s.cfg i.opcode }

/-- PLA and PLP complete: SP gains one modulo 256, one bus read at 0x0100 + the new SP; PLA takes the byte with N and
Z, PLP takes all six flags from bits 7, 6, 3, 2, 1 and 0. PLA after PHA gives the accumulator and SP back, PLP after
PHP all six flags and SP, whatever A or the flags were in between, provided the slot still holds what was pushed.
Formalises R328, R329, R39. -/
def Obligations.PullsReadStackSlot : Prop :=
  (HasForms .pla
    [(.imp, 0x68)]) ∧
  (HasForms .plp
    [(.imp, 0x28)]) ∧
  (∀ (i : Instr) (s : State), s.Calm → i = .pla ∨ i = .plp →
    let sp' := BitVec.ofNat 8 (s.sp.toNat + 1)
    let slot := BitVec.ofNat 16 (256 + sp'.toNat)
    let v := s.peek slot
    exec i s = .next { s.afterRead slot with
      sp := sp'
      a := if i = .pla then v else s.a
      flags := if i = .pla then { s.flags with z := decide (v = 0), n := v.getLsbD 7 }
        else { n := v.getLsbD 7, v := v.getLsbD 6, d := v.getLsbD 3, i := v.getLsbD 2, z := v.getLsbD 1, c := v.getLsbD 0 }
      cycles := s.cycles + cycleCostOf s.cfg i.opcode }) ∧
    ∀ (s t : State) (v : Byte) (f : Flags), s.Calm →
      let slot := BitVec.ofNat 16 (256 + s.sp.toNat)
      (exec .pha s = .next t → t.peek slot = s.a → ∃ u, exec .pla (t.setA v) = .next u ∧ u.a = s.a ∧ u.sp = s.sp) ∧
      (exec .php s = .next t → t.peek slot = packP s.cfg.phpBits54 s.flags →
        ∃ u, exec .plp (t.setFlags f) = .next u ∧ u.flags = s.flags ∧ u.sp = s.sp)

/-- JMP abs completes with PC the operand and no data access; JMP ind completes with PC the word read low byte first
at w, the high byte at w + 1 modulo 2^16 or in the page of w under JMP_IND_PAGE_WRAP.
Formalises R340. -/
def Obligations.JumpsSetPc : Prop :=
  (HasForms .jmp
    [(.abs, 0x4C), (.ind, 0x6C)]) ∧
  ∀ (s : State) (w : Word), s.Calm →
    exec (.jmpAbs w) s = .next { s with pc := w, cycles := s.cycles + cycleCostOf s.cfg 0x4C } ∧
    let hi := BitVec.ofNat 16 (if s.cfg.jmpIndPageWrap then w.toNat / 256 * 256 + (w.toNat + 1) % 256
      else (w.toNat + 1) % 65536)
    exec (.jmpInd w) s = .next { (s.afterRead w).afterRead hi with
      pc := BitVec.ofNat 16 (((s.afterRead w).peek hi).toNat * 256 + (s.peek w).toNat)
      cycles := s.cycles + cycleCostOf s.cfg 0x6C }

/-- JSR completes: the high byte of PC - 1 is written at 0x0100 + SP, the low byte at the slot below modulo 256, SP
loses two modulo 256, PC is the operand; no flag or other register changes.
Formalises R341. -/
def Obligations.JsrPushesReturnAddress : Prop :=
  (HasForms .jsr
    [(.abs, 0x20)]) ∧
  ∀ (s : State) (w : Word), s.Calm →
    let t := (s.pc.toNat + 65535) % 65536
    exec (.jsr w) s = .next {
      (s.memWrite (BitVec.ofNat 16 (256 + s.sp.toNat)) (BitVec.ofNat 8 (t / 256))).memWrite
        (BitVec.ofNat 16 (256 + (s.sp.toNat + 255) % 256)) (BitVec.ofNat 8 t) with
      sp := BitVec.ofNat 8 (s.sp.toNat + 254), pc := w, cycles := s.cycles + cycleCostOf s.cfg 0x20 }

/-- RTS completes: two bus reads at the next two stack slots modulo 256, PC is their word plus one modulo 2^16, SP
gains two modulo 256; no flag or other register changes. Where the bytes pulled are those JSR pushed for a return
address, PC is that address and SP what it was.
Formalises R342. -/
def Obligations.RtsPullsReturnAddress : Prop :=
  (HasForms .rts
    [(.imp, 0x60)]) ∧
  (∀ s : State, s.Calm →
    let lo := BitVec.ofNat 16 (256 + (s.sp.toNat + 1) % 256)
    let hi := BitVec.ofNat 16 (256 + (s.sp.toNat + 2) % 256)
    exec .rts s = .next { (s.afterRead lo).afterRead hi with
      sp := BitVec.ofNat 8 (s.sp.toNat + 2)
      pc := BitVec.ofNat 16 ((((s.afterRead lo).peek hi).toNat * 256 + (s.peek lo).toNat + 1) % 65536)
      cycles := s.cycles + cycleCostOf s.cfg 0x60 }) ∧
    ∀ (s : State) (back : Word) (sp : Byte), s.Calm → s.sp = sp - 2 →
      s.peek (BitVec.ofNat 16 (256 + (sp.toNat + 255) % 256)) = lowByte (back - 1) →
      (s.afterRead (BitVec.ofNat 16 (256 + (sp.toNat + 255) % 256))).peek (BitVec.ofNat 16 (256 + sp.toNat)) =
        highByte (back - 1) →
      ∃ t, exec .rts s = .next t ∧ t.pc = back ∧ t.sp = sp

/-- SEC, SED, SEI, CLC, CLD, CLI, CLV and NOP complete: the named flag is set or cleared, no other flag, register or
memory byte changes, cycles gain the cost; NOP costs 1 under the table.
Formalises R343, R344, R345, R346, R347, R348, R349, R350. -/
def Obligations.FlagInstructionsWriteOneFlag : Prop :=
  (HasForms .sec
    [(.imp, 0x38)]) ∧
  (HasForms .sed
    [(.imp, 0xF8)]) ∧
  (HasForms .sei
    [(.imp, 0x78)]) ∧
  (HasForms .clc
    [(.imp, 0x18)]) ∧
  (HasForms .cld
    [(.imp, 0xD8)]) ∧
  (HasForms .cli
    [(.imp, 0x58)]) ∧
  (HasForms .clv
    [(.imp, 0xB8)]) ∧
  (HasForms .nop
    [(.imp, 0xEA)]) ∧
  ∀ (i : Instr) (s : State), s.Calm → i ∈ [Instr.sec, .sed, .sei, .clc, .cld, .cli, .clv, .nop] →
    exec i s = .next { s with
      flags := { s.flags with
        c := if i = .sec then true else if i = .clc then false else s.flags.c
        d := if i = .sed then true else if i = .cld then false else s.flags.d
        i := if i = .sei then true else if i = .cli then false else s.flags.i
        v := if i = .clv then false else s.flags.v }
      cycles := s.cycles + cycleCostOf s.cfg i.opcode } ∧
    (s.cfg.cycleCost = [] → i = .nop → cycleCostOf s.cfg i.opcode = 1)

/-- With ENABLE_BRK_RTI false, BRK raises UnimplementedOpcode at its own address. With it set, BRK completes: PC + 1
is pushed high byte first, then the status byte with bits 5 and 4 set, I is set, PC is the word at 0xFFFE read low
byte first, SP loses three; D and the other flags are kept.
Formalises R361. -/
def Obligations.BrkPushesAndVectors : Prop :=
  (HasForms .brk
    [(.imp, 0x00)]) ∧
  ∀ s : State, s.Calm →
    (s.cfg.enableBrkRti = false → exec .brk s = .next { s with
      pc := s.pc - 1, running := false
      trace := s.trace ++ [.fault .unimplementedOpcode (some 0x00) (some (s.pc - 1))] }) ∧
    (s.cfg.enableBrkRti = true →
      let t := (s.pc.toNat + 1) % 65536
      let s1 := s.memWrite (BitVec.ofNat 16 (256 + s.sp.toNat)) (BitVec.ofNat 8 (t / 256))
      let s2 := s1.memWrite (BitVec.ofNat 16 (256 + (s.sp.toNat + 255) % 256)) (BitVec.ofNat 8 t)
      let s3 := s2.memWrite (BitVec.ofNat 16 (256 + (s.sp.toNat + 254) % 256)) (BitVec.ofNat 8 (
        (if s.flags.n then 128 else 0) + (if s.flags.v then 64 else 0) + 48 + (if s.flags.d then 8 else 0) +
        (if s.flags.i then 4 else 0) + (if s.flags.z then 2 else 0) + (if s.flags.c then 1 else 0)))
      exec .brk s = .next { (s3.afterRead 0xFFFE).afterRead 0xFFFF with
        sp := BitVec.ofNat 8 (s.sp.toNat + 253)
        flags := { s.flags with i := true }
        pc := BitVec.ofNat 16 (((s3.afterRead 0xFFFE).peek 0xFFFF).toNat * 256 + (s3.peek 0xFFFE).toNat)
        cycles := s.cycles + cycleCostOf s.cfg 0x00 })

/-- With ENABLE_BRK_RTI false, RTI raises UnimplementedOpcode at its own address. With it set, RTI completes: three
bus reads at the next three stack slots modulo 256, all six flags from the first byte, PC the word of the other two,
low byte first, with no one added, SP gains three.
Formalises R362. -/
def Obligations.RtiPullsStatusAndPc : Prop :=
  (HasForms .rti
    [(.imp, 0x40)]) ∧
  ∀ s : State, s.Calm →
    (s.cfg.enableBrkRti = false → exec .rti s = .next { s with
      pc := s.pc - 1, running := false
      trace := s.trace ++ [.fault .unimplementedOpcode (some 0x40) (some (s.pc - 1))] }) ∧
    (s.cfg.enableBrkRti = true →
      let k1 := BitVec.ofNat 16 (256 + (s.sp.toNat + 1) % 256)
      let k2 := BitVec.ofNat 16 (256 + (s.sp.toNat + 2) % 256)
      let k3 := BitVec.ofNat 16 (256 + (s.sp.toNat + 3) % 256)
      let p := s.peek k1
      exec .rti s = .next { ((s.afterRead k1).afterRead k2).afterRead k3 with
        sp := BitVec.ofNat 8 (s.sp.toNat + 3)
        flags := { n := p.getLsbD 7, v := p.getLsbD 6, d := p.getLsbD 3, i := p.getLsbD 2, z := p.getLsbD 1, c := p.getLsbD 0 }
        pc := BitVec.ofNat 16 ((((s.afterRead k1).afterRead k2).peek k3).toNat * 256 + ((s.afterRead k1).peek k2).toNat)
        cycles := s.cycles + cycleCostOf s.cfg 0x40 })

/-- Where no handler runs for the stack slots used (and for BRK the vector bytes) and the stack page has bytes of its
own (MEM_SIZE at least 512): RTS after JSR returns PC to the address after the JSR and SP to its value; with
ENABLE_BRK_RTI, RTI after BRK returns to the byte after the padding byte with the flags and SP as they were.
Derived from R341, R342, R361, R362. -/
def Obligations.ReturnComesBackAfterCall : Prop :=
  ∀ (s t : State) (w pc' : Word), 512 ≤ s.cfg.memSize →
    (QuietFor (.jsr w) s → (∀ a ∈ storedAddrs (.jsr w) s, s.quietRead a) → exec (.jsr w) s = .next t →
      ∃ u, exec .rts (t.setPc pc') = .next u ∧ u.pc = s.pc ∧ u.sp = s.sp) ∧
    (s.cfg.enableBrkRti = true → QuietFor .brk s → (∀ a ∈ storedAddrs .brk s, s.quietRead a) → exec .brk s = .next t →
      ∃ u, exec .rti (t.setPc pc') = .next u ∧ u.pc = s.pc + 1 ∧ u.sp = s.sp ∧ u.flags = s.flags)

/-- When exec gives a next state, A, X, Y and SP are unchanged by every instruction the spec does not list as writing
them (for the shifts, the accumulator form), and PC by every instruction but branches, jumps, calls, returns, BRK and
RTI.
Derived from R30, R31, R32, R34, R130. -/
def Obligations.RegisterWriters : Prop :=
  ∀ (i : Instr) (s t : State), exec i s = .next t →
    (i.mnemonic ∉ [Mnemonic.lda, .adc, .sbc, .and, .ora, .eor, .txa, .tya, .pla] → i.operand ≠ .acc → t.a = s.a) ∧
    (i.mnemonic ∉ [Mnemonic.ldx, .inx, .dex, .tax, .tsx] → t.x = s.x) ∧
    (i.mnemonic ∉ [Mnemonic.ldy, .iny, .dey, .tay] → t.y = s.y) ∧
    (i.mnemonic ∉ [Mnemonic.txs, .pha, .php, .pla, .plp, .jsr, .rts, .brk, .rti] → t.sp = s.sp) ∧
    (i.mnemonic ∉ [Mnemonic.bpl, .bmi, .bvc, .bvs, .bcc, .bcs, .bne, .beq, .jmp, .jsr, .rts, .brk, .rti] → t.pc = s.pc)

/-- When exec gives a next state, each of C, Z, I, D, V and N is unchanged by every instruction that the table of R36
does not list as writing it (BRK writes I, RTI every flag).
Derived from R36. -/
def Obligations.FlagWriters : Prop :=
  ∀ (i : Instr) (s t : State), exec i s = .next t →
    (i.mnemonic ∉ [Mnemonic.adc, .sbc, .cmp, .cpx, .cpy, .asl, .lsr, .rol, .ror, .sec, .clc, .plp, .rti] → t.flags.c = s.flags.c) ∧
    (i.mnemonic ∉ [Mnemonic.lda, .ldx, .ldy, .adc, .sbc, .and, .ora, .eor, .cmp, .cpx, .cpy, .bit, .inc, .dec, .inx,
      .iny, .dex, .dey, .asl, .lsr, .rol, .ror, .tax, .tay, .txa, .tya, .tsx, .pla, .plp, .rti] →
      t.flags.z = s.flags.z ∧ t.flags.n = s.flags.n) ∧
    (i.mnemonic ∉ [Mnemonic.sei, .cli, .plp, .brk, .rti] → t.flags.i = s.flags.i) ∧
    (i.mnemonic ∉ [Mnemonic.sed, .cld, .plp, .rti] → t.flags.d = s.flags.d) ∧
    (i.mnemonic ∉ [Mnemonic.adc, .sbc, .bit, .clv, .plp, .rti] → t.flags.v = s.flags.v)

/-- Where no handler runs for the accesses of the instruction (QuietFor: none stands at the addresses it reads or
stores to, or suppression is on), when exec gives a next state: every byte reads as before except at the addresses the
instruction stores to (computed by storedAddrs; none for a form that stores nothing), and the latches, the watch maps,
suppression and the refusal mark are unchanged; running and the trace too, unless BRK or RTI is disabled.
Derived from R124, R72, R73, R78, R43, R44, R45. -/
def Obligations.MemoryFrameWithoutHandlers : Prop :=
  ∀ (i : Instr) (s t : State), QuietFor i s → exec i s = .next t →
    (∀ k, (∀ a ∈ storedAddrs i s, s.index k ≠ s.index a) → t.peek k = s.peek k) ∧
    t.latches = s.latches ∧ t.readWatch = s.readWatch ∧ t.writeWatch = s.writeWatch ∧ t.suppress = s.suppress ∧
    t.cfg = s.cfg ∧ t.refusalMark = s.refusalMark ∧
    (i.wf s.cfg = true → t.running = s.running ∧ t.trace = s.trace)

/-- With the default ExtHandler, when exec gives a next state, every byte reads as before except at the addresses the
instruction stores to and at the two PIA bytes the PIA handlers write, KBDCR and DSP.
Derived from R79, R412, R413, R415, R416. -/
def Obligations.MemoryFrameRecordOnly : Prop :=
  ∀ (i : Instr) (s t : State), s.RecordOnly → exec i s = .next t →
    ∀ k, (∀ a ∈ storedAddrs i s, s.index k ≠ s.index a) → s.index k ≠ s.index s.kbdcr → s.index k ≠ s.index s.dsp →
      t.peek k = s.peek k

/-- Whatever handlers run, host handlers with any ExtHandler among them, a bus read or write leaves A, X, Y, SP, PC,
the flags, cycles, suppression, the parameters and the written marks as they were.
Derived from R79, R78, R435. -/
def Obligations.BusAccessesSpareTheCpu : Prop :=
  ∀ (s : State) (a : Word) (v : Byte) (t : State), t = s.afterRead a ∨ t = s.memWrite a v →
    t.a = s.a ∧ t.x = s.x ∧ t.y = s.y ∧ t.sp = s.sp ∧ t.pc = s.pc ∧ t.flags = s.flags ∧ t.cycles = s.cycles ∧
    t.suppress = s.suppress ∧ t.cfg = s.cfg ∧ t.written = s.written

/-- In a calm state every instruction completes (R130), with the cost of its row added to cycles (R134). The only stop
of exec is the model's own fault (log entry 5).
Derived from R130, R134, R40. -/
def Obligations.EveryInstructionCompletes : Prop :=
  (∀ (i : Instr) (s : State), s.Calm → i.wf s.cfg = true →
      ∃ t, exec i s = .next t ∧ t.cycles = s.cycles + cycleCostOf s.cfg i.opcode ∧ t.diverged = false) ∧
    (∀ (i : Instr) (s : State), (∃ t, exec i s = .next t) ∨ exec i s = .fault .handlersNeverReturn) ∧
    ∀ (i : Instr) (cfg : Config), cfg.cycleCost = [] →
      cycleCostOf cfg i.opcode = BitVec.ofNat 64 (listedCost i.mnemonic i.operand.mode)

/-- The state right after reset satisfies the invariant of the block: canonical memory and watch maps, the PIA
registrations in place and first, an accepted size; and the mark diverged, the model's own (log entry 5), is false, as
StepKeepsInv and ActionsKeepInv say it stays.
Derived from R50, R51, R411. -/
def Obligations.InvHoldsAtReset : Prop :=
  Inv State.reset ∧ State.reset.diverged = false

/-- From every state that satisfies the invariant, a step that answers a next state answers one that satisfies it:
memory and watch maps stay canonical, no byte appears beyond MEM_SIZE, and the PIA handlers stay where they were
registered, first in their lists. The written marks in it and the mark diverged are the model's (log entries 2 and 5).
Derived from R42, R43, R411, R130. -/
def Obligations.StepKeepsInv : Prop :=
  ∀ s t : State, Inv s → step s = .next t → Inv t ∧ t.diverged = false

/-- From every state that satisfies the invariant, any action (a step or any host command, batches, resets and bulk
loads among them) that answers a next state answers one that satisfies it. The written marks in it and the mark
diverged are the model's (log entries 2 and 5).
Derived from R430, R82, R411. -/
def Obligations.ActionsKeepInv : Prop :=
  ∀ (x : Action) (s t : State), Inv s → act x s = .next t → Inv t ∧ t.diverged = false

/-- Every step keeps the parameters and suppression, only appends to the trace and to every watch list, never takes
back the refusal mark, and never sets running. That it takes no written mark back and keeps those of PC and cycles,
where the spec lets A, N and Z be written before the fault (R407), is the model's reading (log entry 2).
Derived from R47, R43, R41, R76. -/
def Obligations.StepTakesNothingBack : Prop :=
  ∀ s t : State, step s = .next t → StepKeeps s t

/-- Two states that differ only in cycles step to states that differ only in cycles, and to the same stop.
Derived from R40, R474, R134. -/
def Obligations.CyclesAreNeverRead : Prop :=
  ∀ (s : State) (k : Cycles),
    match step s with
    | .next t => ∃ k', step (s.setCycles k) = .next (t.setCycles k')
    | .fault r => step (s.setCycles k) = .fault r
    | .refused r => step (s.setCycles k) = .refused r

/-- For every instruction but those that read or write I (PHP, PLP, SEI, CLI, BRK, RTI), executing it with another
value of I gives the same next state but for that value of I.
Derived from R36, R408. -/
def Obligations.InterruptFlagGatesNothing : Prop :=
  ∀ (i : Instr) (s t : State) (b : Bool), i.mnemonic ∉ [Mnemonic.php, .plp, .sei, .cli, .brk, .rti] → exec i s = .next t →
    exec i (s.setFlags { s.flags with i := b }) = .next (t.setFlags { t.flags with i := b })

/-- For every instruction but ADC, SBC and those that read or write D as a bit (PHP, PLP, SED, CLD, BRK, RTI),
executing it with another value of D gives the same next state but for that value of D.
Derived from R36, R225. -/
def Obligations.DecimalFlagAffectsAdcAndSbcOnly : Prop :=
  ∀ (i : Instr) (s t : State) (b : Bool), i.mnemonic ∉ [Mnemonic.adc, .sbc, .php, .plp, .sed, .cld, .brk, .rti] → exec i s = .next t →
    exec i (s.setFlags { s.flags with d := b }) = .next (t.setFlags { t.flags with d := b })

/-- A read at an address with no read handler changes nothing. After a write of v at an address with no write handler,
a read at k returns v when k and a are equal modulo MEM_SIZE and what it returned before otherwise, and the write
changes nothing but that byte. Suppression counts as no handler.
Derived from R71, R72, R73, R96. -/
def Obligations.WriteThenReadAliases : Prop :=
  ∀ (s : State) (a k : Word) (v : Byte),
    (s.quietRead a → (s.memRead a).2 = s) ∧
    (s.quietWrite a →
      ((s.memWrite a v).memRead k).1 =
        (if k.toNat % s.cfg.memSize = a.toNat % s.cfg.memSize then v else (s.memRead k).1) ∧
      (s.memWrite a v).setMem s.mem = s)

/-- Any sequence of reads and writes run under suppression leaves exactly the array writes behind and suppression as
it was (R76), and so does withWatchSuppressed given a sequence of accesses while not running. That its action may be
any command, and what it replies, is the model's choice (log entry 18).
Derived from R76, R72, R73. -/
def Obligations.SuppressedAccessesRunNoHandler : Prop :=
  (∀ (s : State) (l : List (Word × Option Byte)), s.suppressed (runAccesses l) = pokeAll l s) ∧
    (∀ (s : State) (c : HostCommand), c.isAccess = true → s.running = false →
      (command (.suppressed c) s).2 = c.writesAlone s) ∧
    ∀ (s : State) (c : HostCommand),
      command (.suppressed c) s =
        ((command c (s.setSuppress true)).1, { (command c (s.setSuppress true)).2 with suppress := s.suppress })

/-- With suppression off an access runs the handlers that stood at its address and direction when it started, each
once, in order, their own accesses in turn (R78, R80); a host handler appends WatchFired and does its actions (R79), a
refused call setting the refusal mark alone (R462). Nesting has no bound; the mark diverged of an access that never
returns is the model's (log entry 5).
Derived from R78, R79, R80, R81, R77, R462. -/
def Obligations.HandlersFireOnceInOrder : Prop :=
  (∀ (s : State) (a : Word) (v : Byte), s.suppress = false →
      s.memRead a = (s.peek a, runHandlers .read a (s.peek a) s) ∧
      s.memWrite a v = runHandlers .write a v (s.poke a v)) ∧
    (∀ (dir : Dir) (a : Word) (v : Byte) (s : State),
      let t := runHandlers dir a v s
      let u := (s.watchers dir a).foldl (invoke runHandlers dir a v) s
      (t.diverged = false ∨ u.diverged = false → t = u) ∧
      (t.diverged = true ↔ ∀ depth, (dispatch depth dir a v s).diverged = true)) ∧
    (∀ (dir : Dir) (a b : Word) (v : Byte) (s : State) (h g : Nat) (rest body : HandlerProg) (e : ByteArg)
        (c : RefusedCall),
      let run := runProg runHandlers v
      invoke runHandlers dir a v s (.ext h) =
        run (extProg s.cfg h dir a v) { s with trace := s.trace ++ [.watchFired h dir a v] } ∧
      run .done s = s ∧ run (.stop rest) s = run rest { s with running := false } ∧
      run (.memRead b rest) s = run rest (s.memRead b).2 ∧
      run (.memWrite b e rest) s = run rest (s.memWrite b (evalByteArg v e)) ∧
      run (.suppressed body rest) s =
        run rest { run body { s with suppress := true } with suppress := s.suppress } ∧
      run (.addReadWatch b g rest) s = run rest (s.addReadWatch b (.ext g)) ∧
      run (.addWriteWatch b g rest) s = run rest (s.addWriteWatch b (.ext g)) ∧
      run (.refusedCall c rest) s = run rest { s with refusalMark := true }) ∧
    ∀ (s : State) (a : Word) (v : Byte) (ids : List Nat), s.RecordOnly → s.suppress = false →
      (s.watchers .read a = ids.map Handler.ext → s.memRead a =
        (s.peek a, { s with trace := s.trace ++ ids.map (fun h => .watchFired h .read a (s.peek a)) })) ∧
      (s.watchers .write a = ids.map Handler.ext → s.memWrite a v =
        { s.poke a v with trace := s.trace ++ ids.map (fun h => .watchFired h .write a v) })

/-- With the PIA handler at KBD and suppression off, a read of KBD returns the byte that stood there, clears
inputAvailable and bit 7 of KBDCR, and changes no byte of another index; it emits nothing, but for the WatchFired
events of the host handlers that stand there after the PIA handler (which only record), with the byte that stood
there.
Derived from R412, R411, R78, R79. -/
def Obligations.KeyboardReadConsumes : Prop :=
  ∀ (s : State) (ids : List Nat), s.diverged = false → s.suppress = false → s.watchers .read s.kbd = .kbdRead :: ids.map Handler.ext →
    ids = [] ∨ s.cfg.extHandler = [] →
    let t := (s.memRead s.kbd).2
    (s.memRead s.kbd).1 = s.peek s.kbd ∧ t.latches = { s.latches with inputAvailable := false } ∧
    t.peek s.kbdcr = BitVec.ofNat 8 ((s.peek s.kbdcr).toNat % 128) ∧
    (∀ k, s.index k ≠ s.index s.kbdcr → t.peek k = s.peek k) ∧
    t.trace = s.trace ++ ids.map (fun h => .watchFired h .read s.kbd (s.peek s.kbd)) ∧ t.running = s.running ∧
    t.setMem s.mem = { s with latches := { s.latches with inputAvailable := false }, trace := t.trace }

/-- With the PIA handlers at their addresses and suppression off: a write of KBDCR sets inputEnabled and stores bits
6:0 with bit 7 equal to inputAvailable; a write of DSP emits OutputChar of the whole byte if outputEnabled and stores
it with bit 7 clear; a write of DSPCR stores the byte and sets outputEnabled; no byte of another index changes. Host
handlers that stand after the PIA handler (which only record) then append their WatchFired events with the byte as
written.
Derived from R413, R415, R416, R411, R78, R79. -/
def Obligations.ControlAndDisplayWrites : Prop :=
  ∀ (s : State) (v : Byte) (ids : List Nat), s.diverged = false → s.suppress = false → ids = [] ∨ s.cfg.extHandler = [] →
    let fired (a : Word) : List Event := ids.map (fun h => .watchFired h .write a v)
    (s.watchers .write s.kbdcr = .kbdcrWrite :: ids.map Handler.ext →
      (s.memWrite s.kbdcr v).peek s.kbdcr = BitVec.ofNat 8 (v.toNat % 128 + (if s.latches.inputAvailable then 128 else 0)) ∧
      (∀ k, s.index k ≠ s.index s.kbdcr → (s.memWrite s.kbdcr v).peek k = s.peek k) ∧
      (s.memWrite s.kbdcr v).setMem s.mem =
        { s with latches := { s.latches with inputEnabled := true }, trace := s.trace ++ fired s.kbdcr }) ∧
    (s.watchers .write s.dsp = .dspWrite :: ids.map Handler.ext →
      (s.memWrite s.dsp v).peek s.dsp = BitVec.ofNat 8 (v.toNat % 128) ∧
      (∀ k, s.index k ≠ s.index s.dsp → (s.memWrite s.dsp v).peek k = s.peek k) ∧
      (s.memWrite s.dsp v).setMem s.mem =
        { s with trace := s.trace ++ (if s.latches.outputEnabled then [.outputChar v] else []) ++ fired s.dsp }) ∧
    (s.watchers .write s.dspcr = .dspcrWrite :: ids.map Handler.ext →
      (s.memWrite s.dspcr v).peek s.dspcr = v ∧
      (∀ k, s.index k ≠ s.index s.dspcr → (s.memWrite s.dspcr v).peek k = s.peek k) ∧
      (s.memWrite s.dspcr v).setMem s.mem =
        { s with latches := { s.latches with outputEnabled := true }, trace := s.trace ++ fired s.dspcr })

/-- With input disabled and PIA_DROP_WHEN_DISABLED the state is unchanged. Otherwise KBD holds the character with bit
7 set, bit 7 of KBDCR is set and its other bits kept, inputAvailable is set, no handler runs and no other byte
changes.
Formalises R414. -/
def Obligations.InputCharacterIsDelivered : Prop :=
  ∀ (s : State) (c : Byte),
    let t := (command (.processInputChar c) s).2
    (s.cfg.piaDropWhenDisabled = true ∧ s.latches.inputEnabled = false → t = s) ∧
    (¬ (s.cfg.piaDropWhenDisabled = true ∧ s.latches.inputEnabled = false) →
      t.setMem s.mem = s.setLatches { s.latches with inputAvailable := true } ∧
      (∀ k, s.index k ≠ s.index s.kbd → s.index k ≠ s.index s.kbdcr → t.peek k = s.peek k) ∧
      (s.index s.kbd ≠ s.index s.kbdcr →
        t.peek s.kbd = BitVec.ofNat 8 (c.toNat % 128 + 128) ∧
        t.peek s.kbdcr = BitVec.ofNat 8 ((s.peek s.kbdcr).toNat % 128 + 128)) ∧
      (s.index s.kbd = s.index s.kbdcr → t.peek s.kbd = BitVec.ofNat 8 (c.toNat % 128 + 128)))

/-- While not running: loadBulk fails with OutOfRange, changing nothing, exactly when at + n exceeds MEM_SIZE as
integers, and otherwise stores each byte at its index, no other index changes and no handler runs; dumpRange fails
when to >= MEM_SIZE or to < from, and otherwise returns the bytes from index from to index to, both included; it never
changes anything; after a loadBulk of a non-empty range it returns the bytes loaded.
Derived from R83, R84. -/
def Obligations.BulkTransfers : Prop :=
  ∀ (s : State) (bytes : List Byte) (start : Word), s.running = false →
    (start.toNat + bytes.length > s.cfg.memSize → command (.loadBulk bytes start) s = (.error .outOfRange, s)) ∧
    (start.toNat + bytes.length ≤ s.cfg.memSize → ∃ m, command (.loadBulk bytes start) s = (.done, s.setMem m) ∧
      (∀ j (h : j < bytes.length), lookupAt 0 m (start.toNat + j) = bytes[j]) ∧
      (∀ k, k < start.toNat ∨ start.toNat + bytes.length ≤ k → lookupAt 0 m k = lookupAt 0 s.mem k) ∧
      ∀ last : Word, last.toNat + 1 = start.toNat + bytes.length → start.toNat ≤ last.toNat →
        command (.dumpRange start last) (s.setMem m) = (.bytes bytes, s.setMem m)) ∧
    ∀ last : Word,
      (s.cfg.memSize ≤ last.toNat ∨ last.toNat < start.toNat →
        command (.dumpRange start last) s = (.error .outOfRange, s)) ∧
      (start.toNat ≤ last.toNat → last.toNat < s.cfg.memSize →
        ∃ l, command (.dumpRange start last) s = (.bytes l, s) ∧ l.length = last.toNat + 1 - start.toNat ∧
          ∀ j (h : j < l.length), l[j] = lookupAt 0 s.mem (start.toNat + j))

/-- Construction fails with InvalidSize exactly when MEM_SIZE is 0 or above 65536 (R85); otherwise memory is all zero,
every register is unwritten, nothing runs, the latches and suppression are false, the trace is empty, and the watch
maps hold the four PIA registrations and nothing else (R50, R411). The model's own besides: its field diverged is
false (log entry 5), and its invariant holds.
Derived from R50, R85, R411. -/
def Obligations.ConstructionState : Prop :=
  ∀ cfg : Config,
    (cfg.memSize = 0 ∨ 65536 < cfg.memSize → construct cfg = .error .invalidSize) ∧
    (1 ≤ cfg.memSize → cfg.memSize ≤ 65536 → ∃ s, construct cfg = .ok s ∧ s.cfg = cfg ∧ s.mem = [] ∧
      s.written = .every false ∧ s.running = false ∧ s.suppress = false ∧ s.trace = [] ∧
      s.latches = { inputEnabled := false, outputEnabled := false, inputAvailable := false } ∧
      (∀ a, s.watchers .read a = if a = cfg.piaBase then [.kbdRead] else []) ∧
      (∀ a, s.watchers .write a = if a = cfg.piaBase + 1 then [.kbdcrWrite] else
        if a = cfg.piaBase + 2 then [.dspWrite] else if a = cfg.piaBase + 3 then [.dspcrWrite] else []) ∧
      s.diverged = false ∧ Inv s)

/-- CPU reset sets A, X, Y to 0, SP, the flags and cycles to their reset values, and PC to the word at the reset
vector, read low byte first by two dispatched reads on the state with the registers already reset; suppression and the
parameters are unchanged, and where no handler runs nothing else changes and a second reset changes nothing.
Formalises R460. -/
def Obligations.CpuResetLoadsRegistersAndVector : Prop :=
  ∀ s : State,
    let t := (command .cpuReset s).2
    let r : State := { s with
      a := 0, x := 0, y := 0, sp := s.cfg.spReset, flags := s.cfg.flagsReset, cycles := 0 }
    let lo := s.cfg.resetVector
    let hi := BitVec.ofNat 16 ((lo.toNat + 1) % 65536)
    t = { (r.afterRead lo).afterRead hi with
          pc := BitVec.ofNat 16 (((r.afterRead lo).peek hi).toNat * 256 + (s.peek lo).toNat), written := .every true } ∧
    t.a = 0 ∧ t.x = 0 ∧ t.y = 0 ∧ t.sp = s.cfg.spReset ∧ t.flags = s.cfg.flagsReset ∧ t.cycles = 0 ∧
    t.suppress = s.suppress ∧ t.cfg = s.cfg ∧
    (s.Silent → t = { r with
      pc := BitVec.ofNat 16 ((s.peek hi).toNat * 256 + (s.peek lo).toNat), written := .every true } ∧ (command .cpuReset t).2 = t)

/-- Bus reset makes every byte 0x00 and changes nothing else; PIA reset makes the three latches false and changes
nothing else, so a stale available bit stays in KBDCR.
Formalises R86, R463. -/
def Obligations.BusAndPiaResets : Prop :=
  ∀ (s : State) (a : Word),
    (command .busReset s).2.peek a = 0 ∧ (command .busReset s).2.setMem s.mem = s ∧
    (command .piaReset s).2.latches = { inputEnabled := false, outputEnabled := false, inputAvailable := false } ∧
    (command .piaReset s).2.peek a = s.peek a ∧ (command .piaReset s).2.setLatches s.latches = s

/-- While running, each of the six direct accesses is refused: the state is unchanged but for the refusal mark; and no
action, step or command, ever takes that mark back.
Formalises R405. -/
def Obligations.HostAccessWhileRunningIsRefused : Prop :=
  (∀ (s : State) (c : HostCommand), s.running = true →
      (∃ bytes a, c = .loadBulk bytes a) ∨ (∃ a b, c = .dumpRange a b) ∨ (∃ a, c = .readByte a) ∨
        (∃ a v, c = .writeByte a v) ∨ (∃ a, c = .readShort a) ∨ (∃ z, c = .readShortZeroPage z) →
      command c s = (.refused, { s with refusalMark := true })) ∧
    ∀ (x : Action) (s t : State), act x s = .next t → s.refusalMark = true → t.refusalMark = true

/-- Whatever host commands come between its turns: a batch that returns Stopped or Fault leaves running false, and one
that returns Fault has just emitted a Fault event (R433, R401); the commands of a turn come before its look at
running, so a stop undone by a run before it is not seen; a stopped CPU takes no step; a batch of two lists of turns
is a batch of the first followed, if that yielded, by a batch of the second. A run of batches ends at the first of
them that returns with running false, and its final state is good exactly if no Fault event and no refusal mark is
recorded (R438). A batch as a list of turns, its answer stuck and a run as a list of batches are the model's forms
(log entries 14 and 21).
Derived from R433, R438, R472, R401. -/
def Obligations.BatchesEndAsStated : Prop :=
  (∀ (n : Nat) (s : State), s.running = false → batch (n + 1) s = (.stopped, s)) ∧
    (∀ (turns : List Turn) (s t : State), batchWith turns s = (.stopped, t) → t.running = false) ∧
    (∀ (turns : List Turn) (s t : State), batchWith turns s = (.fault, t) →
      t.running = false ∧ ∃ l kind op pc, t.trace = l ++ [.fault kind op pc]) ∧
    (∀ (cs : Turn) (turns : List Turn) (s : State), batchWith (cs :: turns) s =
      match giveAll cs s with
      | some s1 => batchWith ([] :: turns) s1
      | none => (.stuck, s.markDiverged)) ∧
    (∀ (cs : Turn) (turns : List Turn) (s : State), s.diverged = false → s.running = true →
      batchWith ((.stop :: .run :: cs) :: turns) s = batchWith (cs :: turns) s) ∧
    (∀ (l l' : List Turn) (s : State), batchWith (l ++ l') s =
      match batchWith l s with
      | (.yielded, s') => batchWith l' s'
      | r => r) ∧
    (∀ (batches : List (List Turn)) (s t : State), runEnd batches s = some t ↔
      ∃ before b after r, batches = before ++ b :: after ∧ b ≠ [] ∧
        (∀ l b' l', before = l ++ b' :: l' → b' ≠ [] →
          (batchWith b' (l.foldl (fun s b => (batchWith b s).2) s)).1 ≠ .stuck ∧
          (batchWith b' (l.foldl (fun s b => (batchWith b s).2) s)).2.running = true) ∧
        batchWith b (before.foldl (fun s b => (batchWith b s).2) s) = (r, t) ∧ r ≠ .stuck ∧ t.running = false) ∧
    ∀ (batches : List (List Turn)) (s t : State), runStatus batches s = .good t ↔
      runEnd batches s = some t ∧ (∀ e ∈ t.trace, e.isFault = false) ∧ t.refusalMark = false

/-- run sets running and stop clears it, changing nothing else (R431, R432); evokeRunAtAddress sets PC and running and
changes nothing else (R434). A stop during an instruction changes nothing of what the instruction does, its cycles
counted (R432, R472). That a step of a stopped state answers that state, which is how no further step is taken, is the
model's choice (log entry 3).
Derived from R431, R432, R434, R472. -/
def Obligations.RunStopEvoke : Prop :=
  ∀ (s : State) (a : Word),
    (s.running = true → (command .run s).2 = s) ∧ (command .run s).2.running = true ∧
    (command .run s).2.setRunning s.running = s ∧ (command .stop s).2.running = false ∧
    (command .stop s).2.setRunning s.running = s ∧
    (command (.evokeRunAtAddress a) s).2 =
      { s with pc := a, written := { s.written with pc := true }, running := true } ∧
    (s.running = false → (command .stop s).2 = s) ∧
    (s.diverged = false → step (command .stop s).2 = .next (command .stop s).2) ∧
    ∀ (i : Instr) (t : State), exec i s = .next t → exec i (command .stop s).2 = .next (command .stop t).2

/-- Every host command made of others than CPU reset and evokeRunAtAddress leaves A, X, Y, SP, PC, the flags and
cycles as they were, and the observers report the registers as they are, unwritten ones as such.
Formalises R435. -/
def Obligations.HostCommandsSpareTheCpu : Prop :=
  (∀ (c : HostCommand) (s : State), c.sparesCpu = true →
      (command c s).2.a = s.a ∧ (command c s).2.x = s.x ∧ (command c s).2.y = s.y ∧ (command c s).2.sp = s.sp ∧
      (command c s).2.pc = s.pc ∧ (command c s).2.flags = s.flags ∧ (command c s).2.cycles = s.cycles) ∧
    ∀ (a : Word) (s : State), (command (.evokeRunAtAddress a) s).2.setPc s.pc =
      { s with written := { s.written with pc := true }, running := true } ∧
    (observe s).a = (if s.written.a then some s.a else none) ∧
    (observe s).x = (if s.written.x then some s.x else none) ∧
    (observe s).y = (if s.written.y then some s.y else none) ∧
    (observe s).sp = (if s.written.sp then some s.sp else none) ∧
    (observe s).pc = (if s.written.pc then some s.pc else none) ∧
    (observe s).c = (if s.written.c then some s.flags.c else none) ∧
    (observe s).z = (if s.written.z then some s.flags.z else none) ∧
    (observe s).i = (if s.written.i then some s.flags.i else none) ∧
    (observe s).d = (if s.written.d then some s.flags.d else none) ∧
    (observe s).v = (if s.written.v then some s.flags.v else none) ∧
    (observe s).n = (if s.written.n then some s.flags.n else none) ∧
    (observe s).cycles = (if s.written.cycles then some s.cycles else none) ∧ (observe s).running = s.running

/-- addReadWatch and addWriteWatch put the handler at the end of the list of that address and direction and change no
other list and nothing else of the state.
Derived from R77. -/
def Obligations.WatchRegistrationAppends : Prop :=
  ∀ (s : State) (a k : Word) (h : Nat) (dir : Dir),
    (command (.addReadWatch a h) s).2.watchers dir k =
      s.watchers dir k ++ (if dir = .read ∧ k = a then [.ext h] else []) ∧
    (command (.addWriteWatch a h) s).2.watchers dir k =
      s.watchers dir k ++ (if dir = .write ∧ k = a then [.ext h] else []) ∧
    (command (.addReadWatch a h) s).2.setReadWatch s.readWatch = s ∧
    (command (.addWriteWatch a h) s).2.setWriteWatch s.writeWatch = s

/-- While not running: readByte replies the byte that stood at the address before its handlers ran; readShort and
readShortZeroPage reply the word of two dispatched byte reads, low byte first, the high byte at the next address
modulo 2^16 or, in the zero page, modulo 0x100; writeByte is one dispatched write.
Derived from R72, R73, R74, R75, R82. -/
def Obligations.HostReadsWhileStopped : Prop :=
  ∀ (s : State) (a : Word) (z v : Byte), s.running = false →
    command (.readByte a) s = (.byte (s.peek a), s.afterRead a) ∧ command (.writeByte a v) s = (.done, s.memWrite a v) ∧
    (let hi := BitVec.ofNat 16 ((a.toNat + 1) % 65536)
     command (.readShort a) s =
      (.word (BitVec.ofNat 16 (((s.afterRead a).peek hi).toNat * 256 + (s.peek a).toNat)), (s.afterRead a).afterRead hi)) ∧
    (let lo := BitVec.ofNat 16 z.toNat
     let hi := BitVec.ofNat 16 ((z.toNat + 1) % 256)
     command (.readShortZeroPage z) s =
      (.word (BitVec.ofNat 16 (((s.afterRead lo).peek hi).toNat * 256 + (s.peek lo).toNat)), (s.afterRead lo).afterRead hi))
end

