-- ==== Sys2Proof/Laws/Bits.lean ====
section
/-! SUPPORT. The bit-field and byte-order helpers (00_scope.md R4, R5) as numbers. -/

namespace Sys2Proof

theorem joinBytes_toNat (hi lo : Byte) : (joinBytes hi lo).toNat = hi.toNat * 256 + lo.toNat := by
  have h : (hi ++ lo).toNat = hi.toNat <<< 8 ||| lo.toNat := BitVec.toNat_append hi lo
  rw [joinBytes, h, ← Nat.shiftLeft_add_eq_or_of_lt lo.isLt, Nat.shiftLeft_eq]

theorem lowByte_toNat (w : Word) : (lowByte w).toNat = w.toNat % 256 := by simp [lowByte]

theorem highByte_toNat (w : Word) : (highByte w).toNat = w.toNat / 256 := by
  simp [highByte, Nat.shiftRight_eq_div_pow]
  omega

theorem zext_toNat (b : Byte) : (zext b).toNat = b.toNat := by
  simp only [zext, BitVec.toNat_setWidth]
  omega

theorem sext_toInt (b : Byte) : (sext b).toInt = b.toInt := BitVec.toInt_signExtend_of_le (by decide)

/-- The two bytes of a word, joined, are the word. -/
@[simp] theorem joinBytes_highByte_lowByte (w : Word) : joinBytes (highByte w) (lowByte w) = w := by
  apply BitVec.eq_of_toNat_eq
  rw [joinBytes_toNat, highByte_toNat, lowByte_toNat]
  omega

@[simp] theorem highByte_joinBytes (hi lo : Byte) : highByte (joinBytes hi lo) = hi := by
  apply BitVec.eq_of_toNat_eq
  rw [highByte_toNat, joinBytes_toNat]
  omega

@[simp] theorem lowByte_joinBytes (hi lo : Byte) : lowByte (joinBytes hi lo) = lo := by
  apply BitVec.eq_of_toNat_eq
  rw [lowByte_toNat, joinBytes_toNat]
  omega

end Sys2Proof
end

