-- ==== Sys2Proof/Laws/State.lean ====
section
/-! SUPPORT. One lemma per field per update of State, true by `rfl`, so that no later proof unfolds a record update; and what
the array, the watch maps and the PIA addresses read after an update of another field. -/

namespace Sys2Proof.Machine

section setA_fields
variable (s : State) (v : Byte)
@[simp] theorem setA_cfg : (s.setA v).cfg = s.cfg := rfl
@[simp] theorem setA_a : (s.setA v).a = v := rfl
@[simp] theorem setA_x : (s.setA v).x = s.x := rfl
@[simp] theorem setA_y : (s.setA v).y = s.y := rfl
@[simp] theorem setA_sp : (s.setA v).sp = s.sp := rfl
@[simp] theorem setA_pc : (s.setA v).pc = s.pc := rfl
@[simp] theorem setA_flags : (s.setA v).flags = s.flags := rfl
@[simp] theorem setA_cycles : (s.setA v).cycles = s.cycles := rfl
@[simp] theorem setA_running : (s.setA v).running = s.running := rfl
@[simp] theorem setA_mem : (s.setA v).mem = s.mem := rfl
@[simp] theorem setA_readWatch : (s.setA v).readWatch = s.readWatch := rfl
@[simp] theorem setA_writeWatch : (s.setA v).writeWatch = s.writeWatch := rfl
@[simp] theorem setA_suppress : (s.setA v).suppress = s.suppress := rfl
@[simp] theorem setA_latches : (s.setA v).latches = s.latches := rfl
@[simp] theorem setA_trace : (s.setA v).trace = s.trace := rfl
@[simp] theorem setA_written : (s.setA v).written = s.written := rfl
@[simp] theorem setA_refusalMark : (s.setA v).refusalMark = s.refusalMark := rfl
@[simp] theorem setA_diverged : (s.setA v).diverged = s.diverged := rfl
@[simp] theorem setA_kbd : (s.setA v).kbd = s.kbd := rfl
@[simp] theorem setA_kbdcr : (s.setA v).kbdcr = s.kbdcr := rfl
@[simp] theorem setA_dsp : (s.setA v).dsp = s.dsp := rfl
@[simp] theorem setA_dspcr : (s.setA v).dspcr = s.dspcr := rfl
@[simp] theorem setA_index (k : Word) : (s.setA v).index k = s.index k := rfl
@[simp] theorem setA_peek (k : Word) : (s.setA v).peek k = s.peek k := rfl
@[simp] theorem setA_watchers (dir : Dir) (k : Word) : (s.setA v).watchers dir k = s.watchers dir k := rfl
end setA_fields

section setX_fields
variable (s : State) (v : Byte)
@[simp] theorem setX_cfg : (s.setX v).cfg = s.cfg := rfl
@[simp] theorem setX_a : (s.setX v).a = s.a := rfl
@[simp] theorem setX_x : (s.setX v).x = v := rfl
@[simp] theorem setX_y : (s.setX v).y = s.y := rfl
@[simp] theorem setX_sp : (s.setX v).sp = s.sp := rfl
@[simp] theorem setX_pc : (s.setX v).pc = s.pc := rfl
@[simp] theorem setX_flags : (s.setX v).flags = s.flags := rfl
@[simp] theorem setX_cycles : (s.setX v).cycles = s.cycles := rfl
@[simp] theorem setX_running : (s.setX v).running = s.running := rfl
@[simp] theorem setX_mem : (s.setX v).mem = s.mem := rfl
@[simp] theorem setX_readWatch : (s.setX v).readWatch = s.readWatch := rfl
@[simp] theorem setX_writeWatch : (s.setX v).writeWatch = s.writeWatch := rfl
@[simp] theorem setX_suppress : (s.setX v).suppress = s.suppress := rfl
@[simp] theorem setX_latches : (s.setX v).latches = s.latches := rfl
@[simp] theorem setX_trace : (s.setX v).trace = s.trace := rfl
@[simp] theorem setX_written : (s.setX v).written = s.written := rfl
@[simp] theorem setX_refusalMark : (s.setX v).refusalMark = s.refusalMark := rfl
@[simp] theorem setX_diverged : (s.setX v).diverged = s.diverged := rfl
@[simp] theorem setX_kbd : (s.setX v).kbd = s.kbd := rfl
@[simp] theorem setX_kbdcr : (s.setX v).kbdcr = s.kbdcr := rfl
@[simp] theorem setX_dsp : (s.setX v).dsp = s.dsp := rfl
@[simp] theorem setX_dspcr : (s.setX v).dspcr = s.dspcr := rfl
@[simp] theorem setX_index (k : Word) : (s.setX v).index k = s.index k := rfl
@[simp] theorem setX_peek (k : Word) : (s.setX v).peek k = s.peek k := rfl
@[simp] theorem setX_watchers (dir : Dir) (k : Word) : (s.setX v).watchers dir k = s.watchers dir k := rfl
end setX_fields

section setY_fields
variable (s : State) (v : Byte)
@[simp] theorem setY_cfg : (s.setY v).cfg = s.cfg := rfl
@[simp] theorem setY_a : (s.setY v).a = s.a := rfl
@[simp] theorem setY_x : (s.setY v).x = s.x := rfl
@[simp] theorem setY_y : (s.setY v).y = v := rfl
@[simp] theorem setY_sp : (s.setY v).sp = s.sp := rfl
@[simp] theorem setY_pc : (s.setY v).pc = s.pc := rfl
@[simp] theorem setY_flags : (s.setY v).flags = s.flags := rfl
@[simp] theorem setY_cycles : (s.setY v).cycles = s.cycles := rfl
@[simp] theorem setY_running : (s.setY v).running = s.running := rfl
@[simp] theorem setY_mem : (s.setY v).mem = s.mem := rfl
@[simp] theorem setY_readWatch : (s.setY v).readWatch = s.readWatch := rfl
@[simp] theorem setY_writeWatch : (s.setY v).writeWatch = s.writeWatch := rfl
@[simp] theorem setY_suppress : (s.setY v).suppress = s.suppress := rfl
@[simp] theorem setY_latches : (s.setY v).latches = s.latches := rfl
@[simp] theorem setY_trace : (s.setY v).trace = s.trace := rfl
@[simp] theorem setY_written : (s.setY v).written = s.written := rfl
@[simp] theorem setY_refusalMark : (s.setY v).refusalMark = s.refusalMark := rfl
@[simp] theorem setY_diverged : (s.setY v).diverged = s.diverged := rfl
@[simp] theorem setY_kbd : (s.setY v).kbd = s.kbd := rfl
@[simp] theorem setY_kbdcr : (s.setY v).kbdcr = s.kbdcr := rfl
@[simp] theorem setY_dsp : (s.setY v).dsp = s.dsp := rfl
@[simp] theorem setY_dspcr : (s.setY v).dspcr = s.dspcr := rfl
@[simp] theorem setY_index (k : Word) : (s.setY v).index k = s.index k := rfl
@[simp] theorem setY_peek (k : Word) : (s.setY v).peek k = s.peek k := rfl
@[simp] theorem setY_watchers (dir : Dir) (k : Word) : (s.setY v).watchers dir k = s.watchers dir k := rfl
end setY_fields

section setSp_fields
variable (s : State) (v : Byte)
@[simp] theorem setSp_cfg : (s.setSp v).cfg = s.cfg := rfl
@[simp] theorem setSp_a : (s.setSp v).a = s.a := rfl
@[simp] theorem setSp_x : (s.setSp v).x = s.x := rfl
@[simp] theorem setSp_y : (s.setSp v).y = s.y := rfl
@[simp] theorem setSp_sp : (s.setSp v).sp = v := rfl
@[simp] theorem setSp_pc : (s.setSp v).pc = s.pc := rfl
@[simp] theorem setSp_flags : (s.setSp v).flags = s.flags := rfl
@[simp] theorem setSp_cycles : (s.setSp v).cycles = s.cycles := rfl
@[simp] theorem setSp_running : (s.setSp v).running = s.running := rfl
@[simp] theorem setSp_mem : (s.setSp v).mem = s.mem := rfl
@[simp] theorem setSp_readWatch : (s.setSp v).readWatch = s.readWatch := rfl
@[simp] theorem setSp_writeWatch : (s.setSp v).writeWatch = s.writeWatch := rfl
@[simp] theorem setSp_suppress : (s.setSp v).suppress = s.suppress := rfl
@[simp] theorem setSp_latches : (s.setSp v).latches = s.latches := rfl
@[simp] theorem setSp_trace : (s.setSp v).trace = s.trace := rfl
@[simp] theorem setSp_written : (s.setSp v).written = s.written := rfl
@[simp] theorem setSp_refusalMark : (s.setSp v).refusalMark = s.refusalMark := rfl
@[simp] theorem setSp_diverged : (s.setSp v).diverged = s.diverged := rfl
@[simp] theorem setSp_kbd : (s.setSp v).kbd = s.kbd := rfl
@[simp] theorem setSp_kbdcr : (s.setSp v).kbdcr = s.kbdcr := rfl
@[simp] theorem setSp_dsp : (s.setSp v).dsp = s.dsp := rfl
@[simp] theorem setSp_dspcr : (s.setSp v).dspcr = s.dspcr := rfl
@[simp] theorem setSp_index (k : Word) : (s.setSp v).index k = s.index k := rfl
@[simp] theorem setSp_peek (k : Word) : (s.setSp v).peek k = s.peek k := rfl
@[simp] theorem setSp_watchers (dir : Dir) (k : Word) : (s.setSp v).watchers dir k = s.watchers dir k := rfl
end setSp_fields

section setPc_fields
variable (s : State) (v : Word)
@[simp] theorem setPc_cfg : (s.setPc v).cfg = s.cfg := rfl
@[simp] theorem setPc_a : (s.setPc v).a = s.a := rfl
@[simp] theorem setPc_x : (s.setPc v).x = s.x := rfl
@[simp] theorem setPc_y : (s.setPc v).y = s.y := rfl
@[simp] theorem setPc_sp : (s.setPc v).sp = s.sp := rfl
@[simp] theorem setPc_pc : (s.setPc v).pc = v := rfl
@[simp] theorem setPc_flags : (s.setPc v).flags = s.flags := rfl
@[simp] theorem setPc_cycles : (s.setPc v).cycles = s.cycles := rfl
@[simp] theorem setPc_running : (s.setPc v).running = s.running := rfl
@[simp] theorem setPc_mem : (s.setPc v).mem = s.mem := rfl
@[simp] theorem setPc_readWatch : (s.setPc v).readWatch = s.readWatch := rfl
@[simp] theorem setPc_writeWatch : (s.setPc v).writeWatch = s.writeWatch := rfl
@[simp] theorem setPc_suppress : (s.setPc v).suppress = s.suppress := rfl
@[simp] theorem setPc_latches : (s.setPc v).latches = s.latches := rfl
@[simp] theorem setPc_trace : (s.setPc v).trace = s.trace := rfl
@[simp] theorem setPc_written : (s.setPc v).written = s.written := rfl
@[simp] theorem setPc_refusalMark : (s.setPc v).refusalMark = s.refusalMark := rfl
@[simp] theorem setPc_diverged : (s.setPc v).diverged = s.diverged := rfl
@[simp] theorem setPc_kbd : (s.setPc v).kbd = s.kbd := rfl
@[simp] theorem setPc_kbdcr : (s.setPc v).kbdcr = s.kbdcr := rfl
@[simp] theorem setPc_dsp : (s.setPc v).dsp = s.dsp := rfl
@[simp] theorem setPc_dspcr : (s.setPc v).dspcr = s.dspcr := rfl
@[simp] theorem setPc_index (k : Word) : (s.setPc v).index k = s.index k := rfl
@[simp] theorem setPc_peek (k : Word) : (s.setPc v).peek k = s.peek k := rfl
@[simp] theorem setPc_watchers (dir : Dir) (k : Word) : (s.setPc v).watchers dir k = s.watchers dir k := rfl
end setPc_fields

section setFlags_fields
variable (s : State) (f : Flags)
@[simp] theorem setFlags_cfg : (s.setFlags f).cfg = s.cfg := rfl
@[simp] theorem setFlags_a : (s.setFlags f).a = s.a := rfl
@[simp] theorem setFlags_x : (s.setFlags f).x = s.x := rfl
@[simp] theorem setFlags_y : (s.setFlags f).y = s.y := rfl
@[simp] theorem setFlags_sp : (s.setFlags f).sp = s.sp := rfl
@[simp] theorem setFlags_pc : (s.setFlags f).pc = s.pc := rfl
@[simp] theorem setFlags_flags : (s.setFlags f).flags = f := rfl
@[simp] theorem setFlags_cycles : (s.setFlags f).cycles = s.cycles := rfl
@[simp] theorem setFlags_running : (s.setFlags f).running = s.running := rfl
@[simp] theorem setFlags_mem : (s.setFlags f).mem = s.mem := rfl
@[simp] theorem setFlags_readWatch : (s.setFlags f).readWatch = s.readWatch := rfl
@[simp] theorem setFlags_writeWatch : (s.setFlags f).writeWatch = s.writeWatch := rfl
@[simp] theorem setFlags_suppress : (s.setFlags f).suppress = s.suppress := rfl
@[simp] theorem setFlags_latches : (s.setFlags f).latches = s.latches := rfl
@[simp] theorem setFlags_trace : (s.setFlags f).trace = s.trace := rfl
@[simp] theorem setFlags_written : (s.setFlags f).written = s.written := rfl
@[simp] theorem setFlags_refusalMark : (s.setFlags f).refusalMark = s.refusalMark := rfl
@[simp] theorem setFlags_diverged : (s.setFlags f).diverged = s.diverged := rfl
@[simp] theorem setFlags_kbd : (s.setFlags f).kbd = s.kbd := rfl
@[simp] theorem setFlags_kbdcr : (s.setFlags f).kbdcr = s.kbdcr := rfl
@[simp] theorem setFlags_dsp : (s.setFlags f).dsp = s.dsp := rfl
@[simp] theorem setFlags_dspcr : (s.setFlags f).dspcr = s.dspcr := rfl
@[simp] theorem setFlags_index (k : Word) : (s.setFlags f).index k = s.index k := rfl
@[simp] theorem setFlags_peek (k : Word) : (s.setFlags f).peek k = s.peek k := rfl
@[simp] theorem setFlags_watchers (dir : Dir) (k : Word) : (s.setFlags f).watchers dir k = s.watchers dir k := rfl
end setFlags_fields

section setCycles_fields
variable (s : State) (v : Cycles)
@[simp] theorem setCycles_cfg : (s.setCycles v).cfg = s.cfg := rfl
@[simp] theorem setCycles_a : (s.setCycles v).a = s.a := rfl
@[simp] theorem setCycles_x : (s.setCycles v).x = s.x := rfl
@[simp] theorem setCycles_y : (s.setCycles v).y = s.y := rfl
@[simp] theorem setCycles_sp : (s.setCycles v).sp = s.sp := rfl
@[simp] theorem setCycles_pc : (s.setCycles v).pc = s.pc := rfl
@[simp] theorem setCycles_flags : (s.setCycles v).flags = s.flags := rfl
@[simp] theorem setCycles_cycles : (s.setCycles v).cycles = v := rfl
@[simp] theorem setCycles_running : (s.setCycles v).running = s.running := rfl
@[simp] theorem setCycles_mem : (s.setCycles v).mem = s.mem := rfl
@[simp] theorem setCycles_readWatch : (s.setCycles v).readWatch = s.readWatch := rfl
@[simp] theorem setCycles_writeWatch : (s.setCycles v).writeWatch = s.writeWatch := rfl
@[simp] theorem setCycles_suppress : (s.setCycles v).suppress = s.suppress := rfl
@[simp] theorem setCycles_latches : (s.setCycles v).latches = s.latches := rfl
@[simp] theorem setCycles_trace : (s.setCycles v).trace = s.trace := rfl
@[simp] theorem setCycles_written : (s.setCycles v).written = s.written := rfl
@[simp] theorem setCycles_refusalMark : (s.setCycles v).refusalMark = s.refusalMark := rfl
@[simp] theorem setCycles_diverged : (s.setCycles v).diverged = s.diverged := rfl
@[simp] theorem setCycles_kbd : (s.setCycles v).kbd = s.kbd := rfl
@[simp] theorem setCycles_kbdcr : (s.setCycles v).kbdcr = s.kbdcr := rfl
@[simp] theorem setCycles_dsp : (s.setCycles v).dsp = s.dsp := rfl
@[simp] theorem setCycles_dspcr : (s.setCycles v).dspcr = s.dspcr := rfl
@[simp] theorem setCycles_index (k : Word) : (s.setCycles v).index k = s.index k := rfl
@[simp] theorem setCycles_peek (k : Word) : (s.setCycles v).peek k = s.peek k := rfl
@[simp] theorem setCycles_watchers (dir : Dir) (k : Word) : (s.setCycles v).watchers dir k = s.watchers dir k := rfl
end setCycles_fields

section setRunning_fields
variable (s : State) (b : Bool)
@[simp] theorem setRunning_cfg : (s.setRunning b).cfg = s.cfg := rfl
@[simp] theorem setRunning_a : (s.setRunning b).a = s.a := rfl
@[simp] theorem setRunning_x : (s.setRunning b).x = s.x := rfl
@[simp] theorem setRunning_y : (s.setRunning b).y = s.y := rfl
@[simp] theorem setRunning_sp : (s.setRunning b).sp = s.sp := rfl
@[simp] theorem setRunning_pc : (s.setRunning b).pc = s.pc := rfl
@[simp] theorem setRunning_flags : (s.setRunning b).flags = s.flags := rfl
@[simp] theorem setRunning_cycles : (s.setRunning b).cycles = s.cycles := rfl
@[simp] theorem setRunning_running : (s.setRunning b).running = b := rfl
@[simp] theorem setRunning_mem : (s.setRunning b).mem = s.mem := rfl
@[simp] theorem setRunning_readWatch : (s.setRunning b).readWatch = s.readWatch := rfl
@[simp] theorem setRunning_writeWatch : (s.setRunning b).writeWatch = s.writeWatch := rfl
@[simp] theorem setRunning_suppress : (s.setRunning b).suppress = s.suppress := rfl
@[simp] theorem setRunning_latches : (s.setRunning b).latches = s.latches := rfl
@[simp] theorem setRunning_trace : (s.setRunning b).trace = s.trace := rfl
@[simp] theorem setRunning_written : (s.setRunning b).written = s.written := rfl
@[simp] theorem setRunning_refusalMark : (s.setRunning b).refusalMark = s.refusalMark := rfl
@[simp] theorem setRunning_diverged : (s.setRunning b).diverged = s.diverged := rfl
@[simp] theorem setRunning_kbd : (s.setRunning b).kbd = s.kbd := rfl
@[simp] theorem setRunning_kbdcr : (s.setRunning b).kbdcr = s.kbdcr := rfl
@[simp] theorem setRunning_dsp : (s.setRunning b).dsp = s.dsp := rfl
@[simp] theorem setRunning_dspcr : (s.setRunning b).dspcr = s.dspcr := rfl
@[simp] theorem setRunning_index (k : Word) : (s.setRunning b).index k = s.index k := rfl
@[simp] theorem setRunning_peek (k : Word) : (s.setRunning b).peek k = s.peek k := rfl
@[simp] theorem setRunning_watchers (dir : Dir) (k : Word) : (s.setRunning b).watchers dir k = s.watchers dir k := rfl
end setRunning_fields

section setMem_fields
variable (s : State) (m : List Host.Cell)
@[simp] theorem setMem_cfg : (s.setMem m).cfg = s.cfg := rfl
@[simp] theorem setMem_a : (s.setMem m).a = s.a := rfl
@[simp] theorem setMem_x : (s.setMem m).x = s.x := rfl
@[simp] theorem setMem_y : (s.setMem m).y = s.y := rfl
@[simp] theorem setMem_sp : (s.setMem m).sp = s.sp := rfl
@[simp] theorem setMem_pc : (s.setMem m).pc = s.pc := rfl
@[simp] theorem setMem_flags : (s.setMem m).flags = s.flags := rfl
@[simp] theorem setMem_cycles : (s.setMem m).cycles = s.cycles := rfl
@[simp] theorem setMem_running : (s.setMem m).running = s.running := rfl
@[simp] theorem setMem_mem : (s.setMem m).mem = m := rfl
@[simp] theorem setMem_readWatch : (s.setMem m).readWatch = s.readWatch := rfl
@[simp] theorem setMem_writeWatch : (s.setMem m).writeWatch = s.writeWatch := rfl
@[simp] theorem setMem_suppress : (s.setMem m).suppress = s.suppress := rfl
@[simp] theorem setMem_latches : (s.setMem m).latches = s.latches := rfl
@[simp] theorem setMem_trace : (s.setMem m).trace = s.trace := rfl
@[simp] theorem setMem_written : (s.setMem m).written = s.written := rfl
@[simp] theorem setMem_refusalMark : (s.setMem m).refusalMark = s.refusalMark := rfl
@[simp] theorem setMem_diverged : (s.setMem m).diverged = s.diverged := rfl
@[simp] theorem setMem_kbd : (s.setMem m).kbd = s.kbd := rfl
@[simp] theorem setMem_kbdcr : (s.setMem m).kbdcr = s.kbdcr := rfl
@[simp] theorem setMem_dsp : (s.setMem m).dsp = s.dsp := rfl
@[simp] theorem setMem_dspcr : (s.setMem m).dspcr = s.dspcr := rfl
@[simp] theorem setMem_index (k : Word) : (s.setMem m).index k = s.index k := rfl
@[simp] theorem setMem_watchers (dir : Dir) (k : Word) : (s.setMem m).watchers dir k = s.watchers dir k := rfl
end setMem_fields

section setReadWatch_fields
variable (s : State) (m : List (Nat × List Handler))
@[simp] theorem setReadWatch_cfg : (s.setReadWatch m).cfg = s.cfg := rfl
@[simp] theorem setReadWatch_a : (s.setReadWatch m).a = s.a := rfl
@[simp] theorem setReadWatch_x : (s.setReadWatch m).x = s.x := rfl
@[simp] theorem setReadWatch_y : (s.setReadWatch m).y = s.y := rfl
@[simp] theorem setReadWatch_sp : (s.setReadWatch m).sp = s.sp := rfl
@[simp] theorem setReadWatch_pc : (s.setReadWatch m).pc = s.pc := rfl
@[simp] theorem setReadWatch_flags : (s.setReadWatch m).flags = s.flags := rfl
@[simp] theorem setReadWatch_cycles : (s.setReadWatch m).cycles = s.cycles := rfl
@[simp] theorem setReadWatch_running : (s.setReadWatch m).running = s.running := rfl
@[simp] theorem setReadWatch_mem : (s.setReadWatch m).mem = s.mem := rfl
@[simp] theorem setReadWatch_readWatch : (s.setReadWatch m).readWatch = m := rfl
@[simp] theorem setReadWatch_writeWatch : (s.setReadWatch m).writeWatch = s.writeWatch := rfl
@[simp] theorem setReadWatch_suppress : (s.setReadWatch m).suppress = s.suppress := rfl
@[simp] theorem setReadWatch_latches : (s.setReadWatch m).latches = s.latches := rfl
@[simp] theorem setReadWatch_trace : (s.setReadWatch m).trace = s.trace := rfl
@[simp] theorem setReadWatch_written : (s.setReadWatch m).written = s.written := rfl
@[simp] theorem setReadWatch_refusalMark : (s.setReadWatch m).refusalMark = s.refusalMark := rfl
@[simp] theorem setReadWatch_diverged : (s.setReadWatch m).diverged = s.diverged := rfl
@[simp] theorem setReadWatch_kbd : (s.setReadWatch m).kbd = s.kbd := rfl
@[simp] theorem setReadWatch_kbdcr : (s.setReadWatch m).kbdcr = s.kbdcr := rfl
@[simp] theorem setReadWatch_dsp : (s.setReadWatch m).dsp = s.dsp := rfl
@[simp] theorem setReadWatch_dspcr : (s.setReadWatch m).dspcr = s.dspcr := rfl
@[simp] theorem setReadWatch_index (k : Word) : (s.setReadWatch m).index k = s.index k := rfl
@[simp] theorem setReadWatch_peek (k : Word) : (s.setReadWatch m).peek k = s.peek k := rfl
end setReadWatch_fields

section setWriteWatch_fields
variable (s : State) (m : List (Nat × List Handler))
@[simp] theorem setWriteWatch_cfg : (s.setWriteWatch m).cfg = s.cfg := rfl
@[simp] theorem setWriteWatch_a : (s.setWriteWatch m).a = s.a := rfl
@[simp] theorem setWriteWatch_x : (s.setWriteWatch m).x = s.x := rfl
@[simp] theorem setWriteWatch_y : (s.setWriteWatch m).y = s.y := rfl
@[simp] theorem setWriteWatch_sp : (s.setWriteWatch m).sp = s.sp := rfl
@[simp] theorem setWriteWatch_pc : (s.setWriteWatch m).pc = s.pc := rfl
@[simp] theorem setWriteWatch_flags : (s.setWriteWatch m).flags = s.flags := rfl
@[simp] theorem setWriteWatch_cycles : (s.setWriteWatch m).cycles = s.cycles := rfl
@[simp] theorem setWriteWatch_running : (s.setWriteWatch m).running = s.running := rfl
@[simp] theorem setWriteWatch_mem : (s.setWriteWatch m).mem = s.mem := rfl
@[simp] theorem setWriteWatch_readWatch : (s.setWriteWatch m).readWatch = s.readWatch := rfl
@[simp] theorem setWriteWatch_writeWatch : (s.setWriteWatch m).writeWatch = m := rfl
@[simp] theorem setWriteWatch_suppress : (s.setWriteWatch m).suppress = s.suppress := rfl
@[simp] theorem setWriteWatch_latches : (s.setWriteWatch m).latches = s.latches := rfl
@[simp] theorem setWriteWatch_trace : (s.setWriteWatch m).trace = s.trace := rfl
@[simp] theorem setWriteWatch_written : (s.setWriteWatch m).written = s.written := rfl
@[simp] theorem setWriteWatch_refusalMark : (s.setWriteWatch m).refusalMark = s.refusalMark := rfl
@[simp] theorem setWriteWatch_diverged : (s.setWriteWatch m).diverged = s.diverged := rfl
@[simp] theorem setWriteWatch_kbd : (s.setWriteWatch m).kbd = s.kbd := rfl
@[simp] theorem setWriteWatch_kbdcr : (s.setWriteWatch m).kbdcr = s.kbdcr := rfl
@[simp] theorem setWriteWatch_dsp : (s.setWriteWatch m).dsp = s.dsp := rfl
@[simp] theorem setWriteWatch_dspcr : (s.setWriteWatch m).dspcr = s.dspcr := rfl
@[simp] theorem setWriteWatch_index (k : Word) : (s.setWriteWatch m).index k = s.index k := rfl
@[simp] theorem setWriteWatch_peek (k : Word) : (s.setWriteWatch m).peek k = s.peek k := rfl
end setWriteWatch_fields

section setSuppress_fields
variable (s : State) (b : Bool)
@[simp] theorem setSuppress_cfg : (s.setSuppress b).cfg = s.cfg := rfl
@[simp] theorem setSuppress_a : (s.setSuppress b).a = s.a := rfl
@[simp] theorem setSuppress_x : (s.setSuppress b).x = s.x := rfl
@[simp] theorem setSuppress_y : (s.setSuppress b).y = s.y := rfl
@[simp] theorem setSuppress_sp : (s.setSuppress b).sp = s.sp := rfl
@[simp] theorem setSuppress_pc : (s.setSuppress b).pc = s.pc := rfl
@[simp] theorem setSuppress_flags : (s.setSuppress b).flags = s.flags := rfl
@[simp] theorem setSuppress_cycles : (s.setSuppress b).cycles = s.cycles := rfl
@[simp] theorem setSuppress_running : (s.setSuppress b).running = s.running := rfl
@[simp] theorem setSuppress_mem : (s.setSuppress b).mem = s.mem := rfl
@[simp] theorem setSuppress_readWatch : (s.setSuppress b).readWatch = s.readWatch := rfl
@[simp] theorem setSuppress_writeWatch : (s.setSuppress b).writeWatch = s.writeWatch := rfl
@[simp] theorem setSuppress_suppress : (s.setSuppress b).suppress = b := rfl
@[simp] theorem setSuppress_latches : (s.setSuppress b).latches = s.latches := rfl
@[simp] theorem setSuppress_trace : (s.setSuppress b).trace = s.trace := rfl
@[simp] theorem setSuppress_written : (s.setSuppress b).written = s.written := rfl
@[simp] theorem setSuppress_refusalMark : (s.setSuppress b).refusalMark = s.refusalMark := rfl
@[simp] theorem setSuppress_diverged : (s.setSuppress b).diverged = s.diverged := rfl
@[simp] theorem setSuppress_kbd : (s.setSuppress b).kbd = s.kbd := rfl
@[simp] theorem setSuppress_kbdcr : (s.setSuppress b).kbdcr = s.kbdcr := rfl
@[simp] theorem setSuppress_dsp : (s.setSuppress b).dsp = s.dsp := rfl
@[simp] theorem setSuppress_dspcr : (s.setSuppress b).dspcr = s.dspcr := rfl
@[simp] theorem setSuppress_index (k : Word) : (s.setSuppress b).index k = s.index k := rfl
@[simp] theorem setSuppress_peek (k : Word) : (s.setSuppress b).peek k = s.peek k := rfl
@[simp] theorem setSuppress_watchers (dir : Dir) (k : Word) : (s.setSuppress b).watchers dir k = s.watchers dir k := rfl
end setSuppress_fields

section setWritten_fields
variable (s : State) (w : Written)
@[simp] theorem setWritten_cfg : (s.setWritten w).cfg = s.cfg := rfl
@[simp] theorem setWritten_a : (s.setWritten w).a = s.a := rfl
@[simp] theorem setWritten_x : (s.setWritten w).x = s.x := rfl
@[simp] theorem setWritten_y : (s.setWritten w).y = s.y := rfl
@[simp] theorem setWritten_sp : (s.setWritten w).sp = s.sp := rfl
@[simp] theorem setWritten_pc : (s.setWritten w).pc = s.pc := rfl
@[simp] theorem setWritten_flags : (s.setWritten w).flags = s.flags := rfl
@[simp] theorem setWritten_cycles : (s.setWritten w).cycles = s.cycles := rfl
@[simp] theorem setWritten_running : (s.setWritten w).running = s.running := rfl
@[simp] theorem setWritten_mem : (s.setWritten w).mem = s.mem := rfl
@[simp] theorem setWritten_readWatch : (s.setWritten w).readWatch = s.readWatch := rfl
@[simp] theorem setWritten_writeWatch : (s.setWritten w).writeWatch = s.writeWatch := rfl
@[simp] theorem setWritten_suppress : (s.setWritten w).suppress = s.suppress := rfl
@[simp] theorem setWritten_latches : (s.setWritten w).latches = s.latches := rfl
@[simp] theorem setWritten_trace : (s.setWritten w).trace = s.trace := rfl
@[simp] theorem setWritten_written : (s.setWritten w).written = w := rfl
@[simp] theorem setWritten_refusalMark : (s.setWritten w).refusalMark = s.refusalMark := rfl
@[simp] theorem setWritten_diverged : (s.setWritten w).diverged = s.diverged := rfl
@[simp] theorem setWritten_kbd : (s.setWritten w).kbd = s.kbd := rfl
@[simp] theorem setWritten_kbdcr : (s.setWritten w).kbdcr = s.kbdcr := rfl
@[simp] theorem setWritten_dsp : (s.setWritten w).dsp = s.dsp := rfl
@[simp] theorem setWritten_dspcr : (s.setWritten w).dspcr = s.dspcr := rfl
@[simp] theorem setWritten_index (k : Word) : (s.setWritten w).index k = s.index k := rfl
@[simp] theorem setWritten_peek (k : Word) : (s.setWritten w).peek k = s.peek k := rfl
@[simp] theorem setWritten_watchers (dir : Dir) (k : Word) : (s.setWritten w).watchers dir k = s.watchers dir k := rfl
end setWritten_fields

section setLatches_fields
variable (s : State) (l : Latches)
@[simp] theorem setLatches_cfg : (s.setLatches l).cfg = s.cfg := rfl
@[simp] theorem setLatches_a : (s.setLatches l).a = s.a := rfl
@[simp] theorem setLatches_x : (s.setLatches l).x = s.x := rfl
@[simp] theorem setLatches_y : (s.setLatches l).y = s.y := rfl
@[simp] theorem setLatches_sp : (s.setLatches l).sp = s.sp := rfl
@[simp] theorem setLatches_pc : (s.setLatches l).pc = s.pc := rfl
@[simp] theorem setLatches_flags : (s.setLatches l).flags = s.flags := rfl
@[simp] theorem setLatches_cycles : (s.setLatches l).cycles = s.cycles := rfl
@[simp] theorem setLatches_running : (s.setLatches l).running = s.running := rfl
@[simp] theorem setLatches_mem : (s.setLatches l).mem = s.mem := rfl
@[simp] theorem setLatches_readWatch : (s.setLatches l).readWatch = s.readWatch := rfl
@[simp] theorem setLatches_writeWatch : (s.setLatches l).writeWatch = s.writeWatch := rfl
@[simp] theorem setLatches_suppress : (s.setLatches l).suppress = s.suppress := rfl
@[simp] theorem setLatches_latches : (s.setLatches l).latches = l := rfl
@[simp] theorem setLatches_trace : (s.setLatches l).trace = s.trace := rfl
@[simp] theorem setLatches_written : (s.setLatches l).written = s.written := rfl
@[simp] theorem setLatches_refusalMark : (s.setLatches l).refusalMark = s.refusalMark := rfl
@[simp] theorem setLatches_diverged : (s.setLatches l).diverged = s.diverged := rfl
@[simp] theorem setLatches_kbd : (s.setLatches l).kbd = s.kbd := rfl
@[simp] theorem setLatches_kbdcr : (s.setLatches l).kbdcr = s.kbdcr := rfl
@[simp] theorem setLatches_dsp : (s.setLatches l).dsp = s.dsp := rfl
@[simp] theorem setLatches_dspcr : (s.setLatches l).dspcr = s.dspcr := rfl
@[simp] theorem setLatches_index (k : Word) : (s.setLatches l).index k = s.index k := rfl
@[simp] theorem setLatches_peek (k : Word) : (s.setLatches l).peek k = s.peek k := rfl
@[simp] theorem setLatches_watchers (dir : Dir) (k : Word) : (s.setLatches l).watchers dir k = s.watchers dir k := rfl
end setLatches_fields

section emit_fields
variable (s : State) (e : Event)
@[simp] theorem emit_cfg : (s.emit e).cfg = s.cfg := rfl
@[simp] theorem emit_a : (s.emit e).a = s.a := rfl
@[simp] theorem emit_x : (s.emit e).x = s.x := rfl
@[simp] theorem emit_y : (s.emit e).y = s.y := rfl
@[simp] theorem emit_sp : (s.emit e).sp = s.sp := rfl
@[simp] theorem emit_pc : (s.emit e).pc = s.pc := rfl
@[simp] theorem emit_flags : (s.emit e).flags = s.flags := rfl
@[simp] theorem emit_cycles : (s.emit e).cycles = s.cycles := rfl
@[simp] theorem emit_running : (s.emit e).running = s.running := rfl
@[simp] theorem emit_mem : (s.emit e).mem = s.mem := rfl
@[simp] theorem emit_readWatch : (s.emit e).readWatch = s.readWatch := rfl
@[simp] theorem emit_writeWatch : (s.emit e).writeWatch = s.writeWatch := rfl
@[simp] theorem emit_suppress : (s.emit e).suppress = s.suppress := rfl
@[simp] theorem emit_latches : (s.emit e).latches = s.latches := rfl
@[simp] theorem emit_trace : (s.emit e).trace = s.trace ++ [e] := rfl
@[simp] theorem emit_written : (s.emit e).written = s.written := rfl
@[simp] theorem emit_refusalMark : (s.emit e).refusalMark = s.refusalMark := rfl
@[simp] theorem emit_diverged : (s.emit e).diverged = s.diverged := rfl
@[simp] theorem emit_kbd : (s.emit e).kbd = s.kbd := rfl
@[simp] theorem emit_kbdcr : (s.emit e).kbdcr = s.kbdcr := rfl
@[simp] theorem emit_dsp : (s.emit e).dsp = s.dsp := rfl
@[simp] theorem emit_dspcr : (s.emit e).dspcr = s.dspcr := rfl
@[simp] theorem emit_index (k : Word) : (s.emit e).index k = s.index k := rfl
@[simp] theorem emit_peek (k : Word) : (s.emit e).peek k = s.peek k := rfl
@[simp] theorem emit_watchers (dir : Dir) (k : Word) : (s.emit e).watchers dir k = s.watchers dir k := rfl
end emit_fields

section markRefused_fields
variable (s : State)
@[simp] theorem markRefused_cfg : (s.markRefused).cfg = s.cfg := rfl
@[simp] theorem markRefused_a : (s.markRefused).a = s.a := rfl
@[simp] theorem markRefused_x : (s.markRefused).x = s.x := rfl
@[simp] theorem markRefused_y : (s.markRefused).y = s.y := rfl
@[simp] theorem markRefused_sp : (s.markRefused).sp = s.sp := rfl
@[simp] theorem markRefused_pc : (s.markRefused).pc = s.pc := rfl
@[simp] theorem markRefused_flags : (s.markRefused).flags = s.flags := rfl
@[simp] theorem markRefused_cycles : (s.markRefused).cycles = s.cycles := rfl
@[simp] theorem markRefused_running : (s.markRefused).running = s.running := rfl
@[simp] theorem markRefused_mem : (s.markRefused).mem = s.mem := rfl
@[simp] theorem markRefused_readWatch : (s.markRefused).readWatch = s.readWatch := rfl
@[simp] theorem markRefused_writeWatch : (s.markRefused).writeWatch = s.writeWatch := rfl
@[simp] theorem markRefused_suppress : (s.markRefused).suppress = s.suppress := rfl
@[simp] theorem markRefused_latches : (s.markRefused).latches = s.latches := rfl
@[simp] theorem markRefused_trace : (s.markRefused).trace = s.trace := rfl
@[simp] theorem markRefused_written : (s.markRefused).written = s.written := rfl
@[simp] theorem markRefused_refusalMark : (s.markRefused).refusalMark = true := rfl
@[simp] theorem markRefused_diverged : (s.markRefused).diverged = s.diverged := rfl
@[simp] theorem markRefused_kbd : (s.markRefused).kbd = s.kbd := rfl
@[simp] theorem markRefused_kbdcr : (s.markRefused).kbdcr = s.kbdcr := rfl
@[simp] theorem markRefused_dsp : (s.markRefused).dsp = s.dsp := rfl
@[simp] theorem markRefused_dspcr : (s.markRefused).dspcr = s.dspcr := rfl
@[simp] theorem markRefused_index (k : Word) : (s.markRefused).index k = s.index k := rfl
@[simp] theorem markRefused_peek (k : Word) : (s.markRefused).peek k = s.peek k := rfl
@[simp] theorem markRefused_watchers (dir : Dir) (k : Word) : (s.markRefused).watchers dir k = s.watchers dir k := rfl
end markRefused_fields

section markDiverged_fields
variable (s : State)
@[simp] theorem markDiverged_cfg : (s.markDiverged).cfg = s.cfg := rfl
@[simp] theorem markDiverged_a : (s.markDiverged).a = s.a := rfl
@[simp] theorem markDiverged_x : (s.markDiverged).x = s.x := rfl
@[simp] theorem markDiverged_y : (s.markDiverged).y = s.y := rfl
@[simp] theorem markDiverged_sp : (s.markDiverged).sp = s.sp := rfl
@[simp] theorem markDiverged_pc : (s.markDiverged).pc = s.pc := rfl
@[simp] theorem markDiverged_flags : (s.markDiverged).flags = s.flags := rfl
@[simp] theorem markDiverged_cycles : (s.markDiverged).cycles = s.cycles := rfl
@[simp] theorem markDiverged_running : (s.markDiverged).running = s.running := rfl
@[simp] theorem markDiverged_mem : (s.markDiverged).mem = s.mem := rfl
@[simp] theorem markDiverged_readWatch : (s.markDiverged).readWatch = s.readWatch := rfl
@[simp] theorem markDiverged_writeWatch : (s.markDiverged).writeWatch = s.writeWatch := rfl
@[simp] theorem markDiverged_suppress : (s.markDiverged).suppress = s.suppress := rfl
@[simp] theorem markDiverged_latches : (s.markDiverged).latches = s.latches := rfl
@[simp] theorem markDiverged_trace : (s.markDiverged).trace = s.trace := rfl
@[simp] theorem markDiverged_written : (s.markDiverged).written = s.written := rfl
@[simp] theorem markDiverged_refusalMark : (s.markDiverged).refusalMark = s.refusalMark := rfl
@[simp] theorem markDiverged_diverged : (s.markDiverged).diverged = true := rfl
@[simp] theorem markDiverged_kbd : (s.markDiverged).kbd = s.kbd := rfl
@[simp] theorem markDiverged_kbdcr : (s.markDiverged).kbdcr = s.kbdcr := rfl
@[simp] theorem markDiverged_dsp : (s.markDiverged).dsp = s.dsp := rfl
@[simp] theorem markDiverged_dspcr : (s.markDiverged).dspcr = s.dspcr := rfl
@[simp] theorem markDiverged_index (k : Word) : (s.markDiverged).index k = s.index k := rfl
@[simp] theorem markDiverged_peek (k : Word) : (s.markDiverged).peek k = s.peek k := rfl
@[simp] theorem markDiverged_watchers (dir : Dir) (k : Word) : (s.markDiverged).watchers dir k = s.watchers dir k := rfl
end markDiverged_fields

end Sys2Proof.Machine
end

