-- ==== Sys2Proof/Laws/Memory.lean ====
section
/-! SUPPORT. The finite maps of Machine/Memory.lean: a read after a write, the canonical form kept by every operation, and
equality of canonical maps that read alike; then the same of the bus array and the watch maps. -/

namespace Sys2Proof.Machine

section maps
variable {β : Type}

theorem lookupAt_removeAt (d : β) (l : List (Nat × β)) (k j : Nat) :
    lookupAt d (removeAt k l) j = if j = k then d else lookupAt d l j := by
  induction l with
  | nil => simp [removeAt, lookupAt]
  | cons p l ih =>
    obtain ⟨k', v'⟩ := p
    by_cases hk : k = k'
    · subst hk
      by_cases hj : j = k <;> simp_all [removeAt, lookupAt]
    · by_cases hj : j = k'
      · subst hj
        simp [removeAt, lookupAt, hk, Ne.symm hk]
      · simp [removeAt, lookupAt, hk, hj, ih]

theorem lookupAt_insertAt (d v : β) (l : List (Nat × β)) (k j : Nat) (h : ∀ p ∈ l, p.1 ≠ k) :
    lookupAt d (insertAt k v l) j = if j = k then v else lookupAt d l j := by
  induction l with
  | nil => simp [insertAt, lookupAt]
  | cons p l ih =>
    obtain ⟨k', v'⟩ := p
    have hne : k' ≠ k := h (k', v') (by simp)
    have ih := ih (fun q hq => h q (by simp [hq]))
    by_cases hlt : k < k'
    · simp [insertAt, lookupAt, hlt]
    · by_cases hj : j = k'
      · subst hj; simp [insertAt, lookupAt, hlt, hne]
      · simp [insertAt, lookupAt, hlt, hj, ih]

theorem mem_removeAt {l : List (Nat × β)} {k : Nat} {p : Nat × β} :
    p ∈ removeAt k l ↔ p ∈ l ∧ p.1 ≠ k := by
  induction l with
  | nil => simp [removeAt]
  | cons q l ih =>
    obtain ⟨k', v'⟩ := q
    by_cases hk : k = k'
    · subst hk
      simp only [removeAt, if_true, ih, List.mem_cons]
      constructor
      · rintro ⟨h, h'⟩; exact ⟨.inr h, h'⟩
      · rintro ⟨rfl | h, h'⟩
        · exact absurd rfl h'
        · exact ⟨h, h'⟩
    · simp only [removeAt, hk, if_false, List.mem_cons, ih]
      constructor
      · rintro (rfl | ⟨h, h'⟩)
        · exact ⟨.inl rfl, Ne.symm hk⟩
        · exact ⟨.inr h, h'⟩
      · rintro ⟨rfl | h, h'⟩
        · exact .inl rfl
        · exact .inr ⟨h, h'⟩

theorem mem_insertAt {l : List (Nat × β)} {k : Nat} {v : β} {p : Nat × β} :
    p ∈ insertAt k v l ↔ p = (k, v) ∨ p ∈ l := by
  induction l with
  | nil => simp [insertAt]
  | cons q l ih =>
    obtain ⟨k', v'⟩ := q
    by_cases hlt : k < k'
    · simp [insertAt, hlt]
    · simp only [insertAt, hlt, if_false, List.mem_cons, ih]
      tauto

/-- The value read at a key after an update: the one written at that key, the old one elsewhere. -/
theorem lookupAt_updateAt [DecidableEq β] (d : β) (l : List (Nat × β)) (k : Nat) (v : β) (j : Nat) :
    lookupAt d (updateAt d l k v) j = if j = k then v else lookupAt d l j := by
  unfold updateAt
  split
  · next h => subst h; exact lookupAt_removeAt _ l k j
  · rw [lookupAt_insertAt _ _ _ _ _ (fun p hp => (mem_removeAt.1 hp).2), lookupAt_removeAt]
    by_cases h : j = k <;> simp [h]

theorem removeAt_pairwise {l : List (Nat × β)} (k : Nat) (h : l.Pairwise (fun p q => p.1 < q.1)) :
    (removeAt k l).Pairwise (fun p q => p.1 < q.1) := by
  induction l with
  | nil => simp [removeAt]
  | cons q l ih =>
    obtain ⟨hq, hl⟩ := List.pairwise_cons.1 h
    obtain ⟨k', v'⟩ := q
    by_cases hk : k = k'
    · simpa [removeAt, hk] using ih hl
    · simp only [removeAt, hk, if_false]
      exact List.pairwise_cons.2 ⟨fun p hp => hq p (mem_removeAt.1 hp).1, ih hl⟩

theorem insertAt_pairwise {l : List (Nat × β)} (k : Nat) (v : β) (hne : ∀ p ∈ l, p.1 ≠ k)
    (h : l.Pairwise (fun p q => p.1 < q.1)) : (insertAt k v l).Pairwise (fun p q => p.1 < q.1) := by
  induction l with
  | nil => simp [insertAt]
  | cons q l ih =>
    obtain ⟨hq, hl⟩ := List.pairwise_cons.1 h
    obtain ⟨k', v'⟩ := q
    by_cases hlt : k < k'
    · simp only [insertAt, hlt, if_true]
      refine List.pairwise_cons.2 ⟨fun p hp => ?_, h⟩
      rcases List.mem_cons.1 hp with rfl | hp
      · exact hlt
      · exact Nat.lt_trans hlt (hq p hp)
    · simp only [insertAt, hlt, if_false]
      have hlt' : k' < k := Nat.lt_of_le_of_ne (Nat.le_of_not_lt hlt) (hne (k', v') (by simp))
      refine List.pairwise_cons.2 ⟨fun p hp => ?_, ih (fun p hp => hne p (by simp [hp])) hl⟩
      rcases mem_insertAt.1 hp with rfl | hp
      · exact hlt'
      · exact hq p hp

theorem mem_updateAt [DecidableEq β] {d : β} {l : List (Nat × β)} {k : Nat} {v : β} {p : Nat × β}
    (h : p ∈ updateAt d l k v) : p = (k, v) ∨ p ∈ l := by
  unfold updateAt at h
  split at h
  · exact .inr (mem_removeAt.1 h).1
  · exact (mem_insertAt.1 h).imp_right fun h => (mem_removeAt.1 h).1

/-- An update keeps the canonical form. -/
theorem updateAt_canonical [DecidableEq β] {d : β} {l : List (Nat × β)} (k : Nat) (v : β) (h : Canonical d l) :
    Canonical d (updateAt d l k v) := by
  unfold updateAt
  split
  · exact ⟨removeAt_pairwise k h.1, fun p hp => h.2 p (mem_removeAt.1 hp).1⟩
  · next hv =>
    refine ⟨insertAt_pairwise k v (fun p hp => (mem_removeAt.1 hp).2) (removeAt_pairwise k h.1), fun p hp => ?_⟩
    rcases mem_insertAt.1 hp with rfl | hp
    · exact hv
    · exact h.2 p (mem_removeAt.1 hp).1

theorem lookupAt_of_mem {d : β} {l : List (Nat × β)} (h : l.Pairwise (fun p q => p.1 < q.1)) {p : Nat × β}
    (hp : p ∈ l) : lookupAt d l p.1 = p.2 := by
  induction l with
  | nil => simp at hp
  | cons q l ih =>
    obtain ⟨hq, hl⟩ := List.pairwise_cons.1 h
    rcases List.mem_cons.1 hp with rfl | hp
    · simp [lookupAt]
    · have hne : p.1 ≠ q.1 := Nat.ne_of_gt (hq p hp)
      simp [lookupAt, hne, ih hl hp]

theorem lookupAt_eq_of_forall_ne {d : β} {l : List (Nat × β)} {k : Nat} (h : ∀ p ∈ l, p.1 ≠ k) : lookupAt d l k = d := by
  induction l with
  | nil => rfl
  | cons q l ih =>
    obtain ⟨k', v'⟩ := q
    have : k ≠ k' := Ne.symm (h (k', v') (by simp))
    simp [lookupAt, this, ih (fun p hp => h p (by simp [hp]))]

theorem mem_iff_lookupAt {d : β} {l : List (Nat × β)} (h : Canonical d l) {p : Nat × β} :
    p ∈ l ↔ lookupAt d l p.1 = p.2 ∧ p.2 ≠ d := by
  constructor
  · intro hp; exact ⟨lookupAt_of_mem h.1 hp, h.2 p hp⟩
  · rintro ⟨h1, h2⟩
    by_contra hp
    have : ∃ q ∈ l, q.1 = p.1 := by
      by_contra hno
      push Not at hno
      exact h2 (h1 ▸ lookupAt_eq_of_forall_ne hno)
    obtain ⟨q, hq, hqp⟩ := this
    have := lookupAt_of_mem (d := d) h.1 hq
    rw [hqp, h1] at this
    exact hp ((Prod.ext hqp this.symm : q = p) ▸ hq)

/-- Two canonical maps that read alike at every key are the same list. -/
theorem canonical_ext {d : β} {l m : List (Nat × β)} (hl : Canonical d l) (hm : Canonical d m)
    (h : ∀ k, lookupAt d l k = lookupAt d m k) : l = m := by
  have hmem : ∀ p, p ∈ l ↔ p ∈ m := fun p => by rw [mem_iff_lookupAt hl, mem_iff_lookupAt hm, h]
  have hirr : ∀ {n : List (Nat × β)}, n.Pairwise (fun p q => p.1 < q.1) → n.Nodup := fun hn =>
    hn.imp fun hlt heq => by subst heq; exact absurd hlt (Nat.lt_irrefl _)
  have hperm : l.Perm m := (List.perm_ext_iff_of_nodup (hirr hl.1) (hirr hm.1)).2 hmem
  exact hperm.eq_of_pairwise (fun p q _ _ h1 h2 => absurd (Nat.lt_trans h1 h2) (Nat.lt_irrefl _)) hl.1 hm.1

end maps

/-! The bus array. -/

section array
variable (s : State) (a k : Word) (v : Byte)

/-- A read after a write: the byte written at every address of the same index, the old byte elsewhere
(20_memory.md R71, R96). -/
theorem peek_poke : (s.poke a v).peek k = if s.index k = s.index a then v else s.peek k :=
  lookupAt_updateAt 0 s.mem (s.index a) v (s.index k)

@[simp] theorem peek_poke_self : (s.poke a v).peek a = v := by simp [peek_poke]

theorem peek_poke_ne (h : s.index k ≠ s.index a) : (s.poke a v).peek k = s.peek k := by simp [peek_poke, h]

theorem poke_wf (h : Memory.wf s.mem) : Memory.wf (s.poke a v).mem := updateAt_canonical _ _ h

theorem index_lt (h : 0 < s.cfg.memSize) : s.index a < s.cfg.memSize := Nat.mod_lt _ h

end array

section poke_fields
variable (s : State) (a : Word) (v : Byte)
@[simp] theorem poke_cfg : (s.poke a v).cfg = s.cfg := rfl
@[simp] theorem poke_a : (s.poke a v).a = s.a := rfl
@[simp] theorem poke_x : (s.poke a v).x = s.x := rfl
@[simp] theorem poke_y : (s.poke a v).y = s.y := rfl
@[simp] theorem poke_sp : (s.poke a v).sp = s.sp := rfl
@[simp] theorem poke_pc : (s.poke a v).pc = s.pc := rfl
@[simp] theorem poke_flags : (s.poke a v).flags = s.flags := rfl
@[simp] theorem poke_cycles : (s.poke a v).cycles = s.cycles := rfl
@[simp] theorem poke_running : (s.poke a v).running = s.running := rfl
@[simp] theorem poke_readWatch : (s.poke a v).readWatch = s.readWatch := rfl
@[simp] theorem poke_writeWatch : (s.poke a v).writeWatch = s.writeWatch := rfl
@[simp] theorem poke_watchers (dir : Dir) (k : Word) : (s.poke a v).watchers dir k = s.watchers dir k := rfl
@[simp] theorem poke_suppress : (s.poke a v).suppress = s.suppress := rfl
@[simp] theorem poke_latches : (s.poke a v).latches = s.latches := rfl
@[simp] theorem poke_trace : (s.poke a v).trace = s.trace := rfl
@[simp] theorem poke_written : (s.poke a v).written = s.written := rfl
@[simp] theorem poke_refusalMark : (s.poke a v).refusalMark = s.refusalMark := rfl
@[simp] theorem poke_diverged : (s.poke a v).diverged = s.diverged := rfl
@[simp] theorem poke_index (k : Word) : (s.poke a v).index k = s.index k := rfl
@[simp] theorem poke_kbd : (s.poke a v).kbd = s.kbd := rfl
@[simp] theorem poke_kbdcr : (s.poke a v).kbdcr = s.kbdcr := rfl
@[simp] theorem poke_dsp : (s.poke a v).dsp = s.dsp := rfl
@[simp] theorem poke_dspcr : (s.poke a v).dspcr = s.dspcr := rfl
end poke_fields

/-! The watch maps (20_memory.md R77). -/

section watches
variable (s : State) (a k : Word) (h : Handler)

theorem word_toNat_inj {a k : Word} : a.toNat = k.toNat ↔ a = k := BitVec.toNat_inj

/-- `addReadWatch` appends at its address and direction and changes no other list (20_memory.md R77). -/
theorem watchers_addReadWatch (dir : Dir) :
    (s.addReadWatch a h).watchers dir k =
      if dir = .read ∧ k = a then s.watchers dir k ++ [h] else s.watchers dir k := by
  cases dir with
  | read =>
    show lookupAt [] (updateAt [] s.readWatch a.toNat _) k.toNat = _
    rw [lookupAt_updateAt]
    by_cases hk : k = a
    · subst hk; simp
    · simp [hk, word_toNat_inj, State.watchers]
  | write => simp [State.addReadWatch, State.watchers]

/-- `addWriteWatch` appends at its address and direction and changes no other list (20_memory.md R77). -/
theorem watchers_addWriteWatch (dir : Dir) :
    (s.addWriteWatch a h).watchers dir k =
      if dir = .write ∧ k = a then s.watchers dir k ++ [h] else s.watchers dir k := by
  cases dir with
  | write =>
    show lookupAt [] (updateAt [] s.writeWatch a.toNat _) k.toNat = _
    rw [lookupAt_updateAt]
    by_cases hk : k = a
    · subst hk; simp
    · simp [hk, word_toNat_inj, State.watchers]
  | read => simp [State.addWriteWatch, State.watchers]

end watches

end Sys2Proof.Machine
end

