-- ==== Sys2Proof/Laws/Bus.lean ====
section
/-! SUPPORT. What the bus and its handlers can do, said once: every dispatch is made of a few updates, so a relation those
updates keep holds between the states before and after any access (`BusClosed`). From it: no handler touches the CPU
(`SameCpu`), nothing is taken back (`StepKeeps`), the invariant stays (`Inv`). Then the accesses that run no handler, the
accesses of a calm state, and the dispatches of a record-only state. -/

namespace Sys2Proof.Machine

/-! The search for a depth that is enough. -/

/-- The search finds the first result that has not diverged. -/
theorem searchDepth_eq_some {result : Nat → State} {n : Nat} {t : State} (h : searchDepth result n = some t) :
    ∃ depth, n ≤ depth ∧ (result depth).diverged = false ∧ t = result depth := by
  refine searchDepth.partial_correctness result
    (fun n t => ∃ depth, n ≤ depth ∧ (result depth).diverged = false ∧ t = result depth) ?_ n t h
  intro search ih n t ht
  split at ht
  · obtain ⟨depth, hd, hr⟩ := ih _ _ ht
    exact ⟨depth, by omega, hr⟩
  · next hn => exact ⟨n, le_rfl, by simpa using hn, (Option.some.inj ht).symm⟩

/-- The search finds none only where every result has diverged. -/
theorem searchDepth_eq_none {result : Nat → State} {n : Nat} (h : searchDepth result n = none) {depth : Nat}
    (hd : n ≤ depth) : (result depth).diverged = true := by
  obtain ⟨k, rfl⟩ := Nat.exists_eq_add_of_le hd
  clear hd
  induction k generalizing n with
  | zero =>
    rw [searchDepth.eq_1] at h
    split at h
    · assumption
    · cases h
  | succ k ih =>
    rw [searchDepth.eq_1] at h
    split at h
    · rw [show n + (k + 1) = n + 1 + k by omega]
      exact ih h
    · cases h

/-- What a dispatch answers: nothing more after one that never returns; the result at a depth that is enough; or the mark,
where no depth from the first on is. -/
theorem runHandlers_cases (dir : Dir) (a : Word) (v : Byte) (s : State) :
    (s.diverged = true ∧ runHandlers dir a v s = s) ∨
      (∃ depth, s.diverged = false ∧ (dispatch depth dir a v s).diverged = false ∧
        runHandlers dir a v s = dispatch depth dir a v s) ∨
      s.diverged = false ∧ (∀ depth, firstDepth ≤ depth → (dispatch depth dir a v s).diverged = true) ∧
        runHandlers dir a v s = s.markDiverged := by
  unfold runHandlers
  split
  · next h => exact .inl ⟨h, rfl⟩
  · next h =>
    have hs : s.diverged = false := by simpa using h
    split
    · next hd =>
      cases hf : searchDepth (fun depth => dispatch depth dir a v s) firstDepth with
      | none => exact .inr (.inr ⟨hs, fun depth hle => searchDepth_eq_none hf hle, rfl⟩)
      | some t =>
        obtain ⟨depth, -, h1, rfl⟩ := searchDepth_eq_some hf
        exact .inr (.inl ⟨depth, hs, h1, rfl⟩)
    · next hd => exact .inr (.inl ⟨firstDepth, hs, by simpa using hd, rfl⟩)

/-- A relation kept by every update a watch handler is made of (20_memory.md R79, 60_exceptions.md R412 to R416). -/
structure BusClosed (R : State → State → Prop) : Prop where
  refl : ∀ s, R s s
  trans : ∀ {s t u}, R s t → R t u → R s u
  poke : ∀ s a v, R s (s.poke a v)
  latches : ∀ s l, R s (s.setLatches l)
  emit : ∀ s e, Event.isFault e = false → R s (s.emit e)
  stop : ∀ s, R s (s.setRunning false)
  addRead : ∀ s a h, R s (s.addReadWatch a (.ext h))
  addWrite : ∀ s a h, R s (s.addWriteWatch a (.ext h))
  refused : ∀ s, R s s.markRefused
  diverged : ∀ s, R s s.markDiverged
  suppressed : ∀ s t, R (s.setSuppress true) t → R s (t.setSuppress s.suppress)

section closed
variable {R : State → State → Prop} (hR : BusClosed R)
include hR

theorem afterAccess_closed {disp : Dir → Word → Byte → State → State} (hd : ∀ dir a v s, R s (disp dir a v s))
    (dir : Dir) (a : Word) (v : Byte) (s : State) : R s (afterAccess disp dir a v s) := by
  unfold afterAccess
  split
  · exact hR.refl s
  · exact hd dir a v s

theorem runProg_closed {disp : Dir → Word → Byte → State → State} (hd : ∀ dir a v s, R s (disp dir a v s)) (v : Byte)
    (p : HandlerProg) (s : State) : R s (runProg disp v p s) := by
  induction p generalizing s with
  | done => exact hR.refl s
  | stop rest ih => exact hR.trans (hR.stop s) (ih _)
  | memRead a rest ih => exact hR.trans (afterAccess_closed hR hd _ _ _ s) (ih _)
  | memWrite a e rest ih => exact hR.trans (hR.trans (hR.poke s _ _) (afterAccess_closed hR hd _ _ _ _)) (ih _)
  | suppressed body rest ihb ihr => exact hR.trans (hR.suppressed s _ (ihb _)) (ihr _)
  | addReadWatch a h rest ih => exact hR.trans (hR.addRead s a h) (ih _)
  | addWriteWatch a h rest ih => exact hR.trans (hR.addWrite s a h) (ih _)
  | refusedCall c rest ih => exact hR.trans (hR.refused s) (ih _)

theorem invoke_closed {disp : Dir → Word → Byte → State → State} (hd : ∀ dir a v s, R s (disp dir a v s)) (dir : Dir)
    (a : Word) (v : Byte) (s : State) (h : Handler) : R s (invoke disp dir a v s h) := by
  cases h with
  | kbdRead => exact hR.trans (hR.latches s _) (hR.poke _ _ _)
  | kbdcrWrite => exact hR.trans (hR.latches s _) (hR.poke _ _ _)
  | dspWrite =>
    show R s (State.poke _ _ _)
    split
    · exact hR.trans (hR.emit s _ rfl) (hR.poke _ _ _)
    · exact hR.poke s _ _
  | dspcrWrite => exact hR.latches s _
  | ext h => exact hR.trans (hR.emit s _ rfl) (runProg_closed hR hd _ _ _)

theorem foldl_closed {f : State → Handler → State} (hf : ∀ s h, R s (f s h)) (hs : List Handler) (s : State) :
    R s (hs.foldl f s) := by
  induction hs generalizing s with
  | nil => exact hR.refl s
  | cons h hs ih => exact hR.trans (hf s h) (ih _)

theorem dispatch_closed (depth : Nat) (dir : Dir) (a : Word) (v : Byte) (s : State) : R s (dispatch depth dir a v s) := by
  induction depth generalizing dir a v s with
  | zero => exact hR.diverged s
  | succ depth ih => exact foldl_closed hR (fun s h => invoke_closed hR ih dir a v s h) _ s

theorem runHandlers_closed (dir : Dir) (a : Word) (v : Byte) (s : State) : R s (runHandlers dir a v s) := by
  rcases runHandlers_cases dir a v s with ⟨-, h⟩ | ⟨depth, -, -, h⟩ | ⟨-, -, h⟩ <;> rw [h]
  · exact hR.refl s
  · exact dispatch_closed hR depth dir a v s
  · exact hR.diverged s

theorem afterRead_closed (s : State) (a : Word) : R s (s.afterRead a) :=
  afterAccess_closed hR (runHandlers_closed hR) _ _ _ s

theorem memWrite_closed (s : State) (a : Word) (v : Byte) : R s (s.memWrite a v) :=
  hR.trans (hR.poke s a v) (afterAccess_closed hR (runHandlers_closed hR) _ _ _ _)

theorem readPair_closed (s : State) (lo hi : Word) : R s (s.readPair lo hi).2 :=
  hR.trans (afterRead_closed hR s lo) (afterRead_closed hR _ hi)

theorem effectiveAddress_closed (m : MemMode) (s : State) : R s (effectiveAddress m s).2 := by
  cases m with
  | indx z => exact readPair_closed hR s _ _
  | indy z => exact readPair_closed hR s _ _
  | zp | zpx | zpy | abs | absx | absy => exact hR.refl s

end closed

/-! No handler touches the CPU: "No host command writes A, X, Y, SP or the flags directly" (60_exceptions.md R435), and the
actions of R79 write none of these. -/

/-- The registers, `cycles`, the written marks, the parameters and suppression are the same in both states. -/
structure SameCpu (s t : State) : Prop where
  cfg : t.cfg = s.cfg
  a : t.a = s.a
  x : t.x = s.x
  y : t.y = s.y
  sp : t.sp = s.sp
  pc : t.pc = s.pc
  flags : t.flags = s.flags
  cycles : t.cycles = s.cycles
  suppress : t.suppress = s.suppress
  written : t.written = s.written

theorem sameCpu_closed : BusClosed SameCpu where
  refl _ := ⟨rfl, rfl, rfl, rfl, rfl, rfl, rfl, rfl, rfl, rfl⟩
  trans h k := ⟨k.cfg.trans h.cfg, k.a.trans h.a, k.x.trans h.x, k.y.trans h.y, k.sp.trans h.sp, k.pc.trans h.pc,
    k.flags.trans h.flags, k.cycles.trans h.cycles, k.suppress.trans h.suppress, k.written.trans h.written⟩
  poke _ _ _ := ⟨rfl, rfl, rfl, rfl, rfl, rfl, rfl, rfl, rfl, rfl⟩
  latches _ _ := ⟨rfl, rfl, rfl, rfl, rfl, rfl, rfl, rfl, rfl, rfl⟩
  emit _ _ _ := ⟨rfl, rfl, rfl, rfl, rfl, rfl, rfl, rfl, rfl, rfl⟩
  stop _ := ⟨rfl, rfl, rfl, rfl, rfl, rfl, rfl, rfl, rfl, rfl⟩
  addRead _ _ _ := ⟨rfl, rfl, rfl, rfl, rfl, rfl, rfl, rfl, rfl, rfl⟩
  addWrite _ _ _ := ⟨rfl, rfl, rfl, rfl, rfl, rfl, rfl, rfl, rfl, rfl⟩
  refused _ := ⟨rfl, rfl, rfl, rfl, rfl, rfl, rfl, rfl, rfl, rfl⟩
  diverged _ := ⟨rfl, rfl, rfl, rfl, rfl, rfl, rfl, rfl, rfl, rfl⟩
  suppressed _ _ h := ⟨h.cfg, h.a, h.x, h.y, h.sp, h.pc, h.flags, h.cycles, rfl, h.written⟩

section same_cpu
variable (s : State)

theorem afterRead_sameCpu (a : Word) : SameCpu s (s.afterRead a) := afterRead_closed sameCpu_closed s a
theorem memWrite_sameCpu (a : Word) (v : Byte) : SameCpu s (s.memWrite a v) := memWrite_closed sameCpu_closed s a v
theorem readPair_sameCpu (lo hi : Word) : SameCpu s (s.readPair lo hi).2 := readPair_closed sameCpu_closed s lo hi
theorem effectiveAddress_sameCpu (m : MemMode) : SameCpu s (effectiveAddress m s).2 :=
  effectiveAddress_closed sameCpu_closed m s

@[simp] theorem afterRead_cfg (a : Word) : (s.afterRead a).cfg = s.cfg := (afterRead_sameCpu s a).cfg
@[simp] theorem afterRead_a (a : Word) : (s.afterRead a).a = s.a := (afterRead_sameCpu s a).a
@[simp] theorem afterRead_x (a : Word) : (s.afterRead a).x = s.x := (afterRead_sameCpu s a).x
@[simp] theorem afterRead_y (a : Word) : (s.afterRead a).y = s.y := (afterRead_sameCpu s a).y
@[simp] theorem afterRead_sp (a : Word) : (s.afterRead a).sp = s.sp := (afterRead_sameCpu s a).sp
@[simp] theorem afterRead_pc (a : Word) : (s.afterRead a).pc = s.pc := (afterRead_sameCpu s a).pc
@[simp] theorem afterRead_flags (a : Word) : (s.afterRead a).flags = s.flags := (afterRead_sameCpu s a).flags
@[simp] theorem afterRead_cycles (a : Word) : (s.afterRead a).cycles = s.cycles := (afterRead_sameCpu s a).cycles
@[simp] theorem afterRead_suppress (a : Word) : (s.afterRead a).suppress = s.suppress := (afterRead_sameCpu s a).suppress
@[simp] theorem afterRead_written (a : Word) : (s.afterRead a).written = s.written := (afterRead_sameCpu s a).written
@[simp] theorem memWrite_cfg (a : Word) (v : Byte) : (s.memWrite a v).cfg = s.cfg := (memWrite_sameCpu s a v).cfg
@[simp] theorem memWrite_a (a : Word) (v : Byte) : (s.memWrite a v).a = s.a := (memWrite_sameCpu s a v).a
@[simp] theorem memWrite_x (a : Word) (v : Byte) : (s.memWrite a v).x = s.x := (memWrite_sameCpu s a v).x
@[simp] theorem memWrite_y (a : Word) (v : Byte) : (s.memWrite a v).y = s.y := (memWrite_sameCpu s a v).y
@[simp] theorem memWrite_sp (a : Word) (v : Byte) : (s.memWrite a v).sp = s.sp := (memWrite_sameCpu s a v).sp
@[simp] theorem memWrite_pc (a : Word) (v : Byte) : (s.memWrite a v).pc = s.pc := (memWrite_sameCpu s a v).pc
@[simp] theorem memWrite_flags (a : Word) (v : Byte) : (s.memWrite a v).flags = s.flags := (memWrite_sameCpu s a v).flags
@[simp] theorem memWrite_cycles (a : Word) (v : Byte) : (s.memWrite a v).cycles = s.cycles := (memWrite_sameCpu s a v).cycles
@[simp] theorem memWrite_suppress (a : Word) (v : Byte) : (s.memWrite a v).suppress = s.suppress := (memWrite_sameCpu s a v).suppress
@[simp] theorem memWrite_written (a : Word) (v : Byte) : (s.memWrite a v).written = s.written := (memWrite_sameCpu s a v).written
@[simp] theorem readPair_cfg (lo hi : Word) : (s.readPair lo hi).2.cfg = s.cfg := (readPair_sameCpu s lo hi).cfg
@[simp] theorem readPair_a (lo hi : Word) : (s.readPair lo hi).2.a = s.a := (readPair_sameCpu s lo hi).a
@[simp] theorem readPair_x (lo hi : Word) : (s.readPair lo hi).2.x = s.x := (readPair_sameCpu s lo hi).x
@[simp] theorem readPair_y (lo hi : Word) : (s.readPair lo hi).2.y = s.y := (readPair_sameCpu s lo hi).y
@[simp] theorem readPair_sp (lo hi : Word) : (s.readPair lo hi).2.sp = s.sp := (readPair_sameCpu s lo hi).sp
@[simp] theorem readPair_pc (lo hi : Word) : (s.readPair lo hi).2.pc = s.pc := (readPair_sameCpu s lo hi).pc
@[simp] theorem readPair_flags (lo hi : Word) : (s.readPair lo hi).2.flags = s.flags := (readPair_sameCpu s lo hi).flags
@[simp] theorem readPair_cycles (lo hi : Word) : (s.readPair lo hi).2.cycles = s.cycles := (readPair_sameCpu s lo hi).cycles
@[simp] theorem readPair_suppress (lo hi : Word) : (s.readPair lo hi).2.suppress = s.suppress := (readPair_sameCpu s lo hi).suppress
@[simp] theorem readPair_written (lo hi : Word) : (s.readPair lo hi).2.written = s.written := (readPair_sameCpu s lo hi).written
@[simp] theorem effectiveAddress_cfg (m : MemMode) : (effectiveAddress m s).2.cfg = s.cfg := (effectiveAddress_sameCpu s m).cfg
@[simp] theorem effectiveAddress_a (m : MemMode) : (effectiveAddress m s).2.a = s.a := (effectiveAddress_sameCpu s m).a
@[simp] theorem effectiveAddress_x (m : MemMode) : (effectiveAddress m s).2.x = s.x := (effectiveAddress_sameCpu s m).x
@[simp] theorem effectiveAddress_y (m : MemMode) : (effectiveAddress m s).2.y = s.y := (effectiveAddress_sameCpu s m).y
@[simp] theorem effectiveAddress_sp (m : MemMode) : (effectiveAddress m s).2.sp = s.sp := (effectiveAddress_sameCpu s m).sp
@[simp] theorem effectiveAddress_pc (m : MemMode) : (effectiveAddress m s).2.pc = s.pc := (effectiveAddress_sameCpu s m).pc
@[simp] theorem effectiveAddress_flags (m : MemMode) : (effectiveAddress m s).2.flags = s.flags := (effectiveAddress_sameCpu s m).flags
@[simp] theorem effectiveAddress_cycles (m : MemMode) : (effectiveAddress m s).2.cycles = s.cycles := (effectiveAddress_sameCpu s m).cycles
@[simp] theorem effectiveAddress_suppress (m : MemMode) : (effectiveAddress m s).2.suppress = s.suppress := (effectiveAddress_sameCpu s m).suppress
@[simp] theorem effectiveAddress_written (m : MemMode) : (effectiveAddress m s).2.written = s.written := (effectiveAddress_sameCpu s m).written
end same_cpu

/-! Nothing is taken back. -/

theorem stepKeeps_closed : BusClosed StepKeeps where
  refl _ := ⟨rfl, rfl, fun _ => id, rfl, rfl, id, List.prefix_refl _, fun _ _ => List.prefix_refl _, id⟩
  trans h k := ⟨k.cfg.trans h.cfg, k.suppress.trans h.suppress, fun r => k.written r ∘ h.written r,
    k.pcWritten.trans h.pcWritten, k.cyclesWritten.trans h.cyclesWritten, h.running ∘ k.running, h.trace.trans k.trace,
    fun dir a => (h.watchers dir a).trans (k.watchers dir a), k.refusalMark ∘ h.refusalMark⟩
  poke _ _ _ := ⟨rfl, rfl, fun _ => id, rfl, rfl, id, List.prefix_refl _, fun _ _ => List.prefix_refl _, id⟩
  latches _ _ := ⟨rfl, rfl, fun _ => id, rfl, rfl, id, List.prefix_refl _, fun _ _ => List.prefix_refl _, id⟩
  emit _ _ _ := ⟨rfl, rfl, fun _ => id, rfl, rfl, id, List.prefix_append _ _, fun _ _ => List.prefix_refl _, id⟩
  stop _ := ⟨rfl, rfl, fun _ => id, rfl, rfl, (nomatch ·), List.prefix_refl _, fun _ _ => List.prefix_refl _, id⟩
  addRead s a h := by
    refine ⟨rfl, rfl, fun _ => id, rfl, rfl, id, List.prefix_refl _, fun dir k => ?_, id⟩
    rw [watchers_addReadWatch]
    split
    · exact List.prefix_append _ _
    · exact List.prefix_refl _
  addWrite s a h := by
    refine ⟨rfl, rfl, fun _ => id, rfl, rfl, id, List.prefix_refl _, fun dir k => ?_, id⟩
    rw [watchers_addWriteWatch]
    split
    · exact List.prefix_append _ _
    · exact List.prefix_refl _
  refused _ := ⟨rfl, rfl, fun _ => id, rfl, rfl, id, List.prefix_refl _, fun _ _ => List.prefix_refl _, fun _ => rfl⟩
  diverged _ := ⟨rfl, rfl, fun _ => id, rfl, rfl, id, List.prefix_refl _, fun _ _ => List.prefix_refl _, id⟩
  suppressed _ _ h :=
    ⟨h.cfg, rfl, h.written, h.pcWritten, h.cyclesWritten, h.running, h.trace, h.watchers, h.refusalMark⟩

/-- The model's mark of divergence is never taken back. -/
theorem diverged_closed : BusClosed (fun s t => s.diverged = true → t.diverged = true) where
  refl _ := id
  trans h k := k ∘ h
  poke _ _ _ := id
  latches _ _ := id
  emit _ _ _ := id
  stop _ := id
  addRead _ _ _ := id
  addWrite _ _ _ := id
  refused _ := id
  diverged _ _ := rfl
  suppressed _ _ h := h

/-- No access writes a mark. -/
theorem sameWritten_closed : BusClosed (fun s t => t.written = s.written) where
  refl _ := rfl
  trans h k := k.trans h
  poke _ _ _ := rfl
  latches _ _ := rfl
  emit _ _ _ := rfl
  stop _ := rfl
  addRead _ _ _ := rfl
  addWrite _ _ _ := rfl
  refused _ := rfl
  diverged _ := rfl
  suppressed _ _ h := h

/-! The invariant. -/

/-- The invariant reads no other field than these. -/
theorem inv_congr {s t : State} (h : Inv s) (hcfg : t.cfg = s.cfg) (hmem : t.mem = s.mem)
    (hr : t.readWatch = s.readWatch) (hw : t.writeWatch = s.writeWatch) (hrw : t.written = s.written) :
    Inv t := by
  obtain ⟨cfg, a, x, y, sp, pc, flags, cycles, running, mem, rw', ww, sup, lat, tr, wr, rm, dv⟩ := t
  subst hcfg hmem hr hw hrw
  exact ⟨h.size, h.mem, h.range, h.readWatch, h.writeWatch, h.readHome, h.writeHome, h.kbdFirst, h.kbdcrFirst,
    h.dspFirst, h.dspcrFirst, h.written⟩

theorem inv_memSize {s : State} (h : Inv s) : 0 < s.cfg.memSize := by
  have := h.size
  simp [Config.wf] at this
  omega

theorem inv_poke {s : State} (h : Inv s) (a : Word) (v : Byte) : Inv (s.poke a v) where
  size := h.size
  mem := poke_wf s a v h.mem
  range c hc := by
    rcases mem_updateAt hc with rfl | hc
    · exact index_lt s a (inv_memSize h)
    · exact h.range c hc
  readWatch := h.readWatch
  writeWatch := h.writeWatch
  readHome := h.readHome
  writeHome := h.writeHome
  kbdFirst := h.kbdFirst
  kbdcrFirst := h.kbdcrFirst
  dspFirst := h.dspFirst
  dspcrFirst := h.dspcrFirst
  written := h.written

theorem head?_append_of_some {α : Type} {l m : List α} {x : α} (h : l.head? = some x) : (l ++ m).head? = some x := by
  cases l with
  | nil => simp at h
  | cons y l => simpa using h

theorem head?_of_prefix {α : Type} {l m : List α} {x : α} (h : l.head? = some x) (hp : l <+: m) : m.head? = some x := by
  obtain ⟨r, rfl⟩ := hp
  exact head?_append_of_some h

theorem mem_lookupAt {β : Type} {l : List (Nat × List β)} {k : Nat} {h : β} (hm : h ∈ lookupAt [] l k) :
    ∃ p ∈ l, p.1 = k ∧ h ∈ p.2 := by
  induction l with
  | nil => simp [lookupAt] at hm
  | cons q l ih =>
    obtain ⟨k', v'⟩ := q
    by_cases hk : k = k'
    · subst hk
      exact ⟨_, List.mem_cons_self .., rfl, by simpa [lookupAt] using hm⟩
    · obtain ⟨p, hp, h1, h2⟩ := ih (by simpa [lookupAt, hk] using hm)
      exact ⟨p, List.mem_cons_of_mem _ hp, h1, h2⟩

theorem inv_addReadWatch {s : State} (h : Inv s) (a : Word) (n : Nat) : Inv (s.addReadWatch a (.ext n)) where
  size := h.size
  mem := h.mem
  range := h.range
  readWatch := by
    refine ⟨updateAt_canonical _ _ h.readWatch.1, fun p hp => ?_⟩
    rcases mem_updateAt hp with rfl | hp
    · exact a.isLt
    · exact h.readWatch.2 p hp
  writeWatch := h.writeWatch
  readHome p hp g hg := by
    rcases mem_updateAt hp with rfl | hp
    · rcases List.mem_append.1 hg with hg | hg
      · obtain ⟨q, hq, hqk, hgq⟩ := mem_lookupAt hg
        have := h.readHome q hq g hgq
        rw [hqk] at this
        exact this
      · obtain rfl : g = .ext n := by simpa using hg
        rfl
    · exact h.readHome p hp g hg
  writeHome := h.writeHome
  kbdFirst := head?_of_prefix h.kbdFirst ((stepKeeps_closed.addRead s a n).watchers _ _)
  kbdcrFirst := head?_of_prefix h.kbdcrFirst ((stepKeeps_closed.addRead s a n).watchers _ _)
  dspFirst := head?_of_prefix h.dspFirst ((stepKeeps_closed.addRead s a n).watchers _ _)
  dspcrFirst := head?_of_prefix h.dspcrFirst ((stepKeeps_closed.addRead s a n).watchers _ _)
  written := h.written

theorem inv_addWriteWatch {s : State} (h : Inv s) (a : Word) (n : Nat) : Inv (s.addWriteWatch a (.ext n)) where
  size := h.size
  mem := h.mem
  range := h.range
  readWatch := h.readWatch
  writeWatch := by
    refine ⟨updateAt_canonical _ _ h.writeWatch.1, fun p hp => ?_⟩
    rcases mem_updateAt hp with rfl | hp
    · exact a.isLt
    · exact h.writeWatch.2 p hp
  readHome := h.readHome
  writeHome p hp g hg := by
    rcases mem_updateAt hp with rfl | hp
    · rcases List.mem_append.1 hg with hg | hg
      · obtain ⟨q, hq, hqk, hgq⟩ := mem_lookupAt hg
        have := h.writeHome q hq g hgq
        rw [hqk] at this
        exact this
      · obtain rfl : g = .ext n := by simpa using hg
        rfl
    · exact h.writeHome p hp g hg
  kbdFirst := head?_of_prefix h.kbdFirst ((stepKeeps_closed.addWrite s a n).watchers _ _)
  kbdcrFirst := head?_of_prefix h.kbdcrFirst ((stepKeeps_closed.addWrite s a n).watchers _ _)
  dspFirst := head?_of_prefix h.dspFirst ((stepKeeps_closed.addWrite s a n).watchers _ _)
  dspcrFirst := head?_of_prefix h.dspcrFirst ((stepKeeps_closed.addWrite s a n).watchers _ _)
  written := h.written

/-- No access breaks the invariant. -/
theorem inv_closed : BusClosed (fun s t => Inv s → Inv t) where
  refl _ := id
  trans h k := k ∘ h
  poke _ a v h := inv_poke h a v
  latches _ _ h := inv_congr h rfl rfl rfl rfl rfl
  emit _ _ _ h := inv_congr h rfl rfl rfl rfl rfl
  stop _ h := inv_congr h rfl rfl rfl rfl rfl
  addRead _ a n h := inv_addReadWatch h a n
  addWrite _ a n h := inv_addWriteWatch h a n
  refused _ h := inv_congr h rfl rfl rfl rfl rfl
  diverged _ h := inv_congr h rfl rfl rfl rfl rfl
  suppressed _ _ hR h := inv_congr (hR (inv_congr h rfl rfl rfl rfl rfl)) rfl rfl rfl rfl rfl

/-! Accesses that run no handler. -/

/-- A dispatch at any depth but none runs the handlers of its address and direction in order (20_memory.md R78). -/
theorem dispatch_succ (depth : Nat) (dir : Dir) (a : Word) (v : Byte) (s : State) :
    dispatch (depth + 1) dir a v s = (s.watchers dir a).foldl (invoke (dispatch depth) dir a v) s := rfl

/-- Where the first depth is enough, it is the answer. -/
theorem runHandlers_of_first {dir : Dir} {a : Word} {v : Byte} {s : State}
    (h : (dispatch firstDepth dir a v s).diverged = false) (hs : s.diverged = false) :
    runHandlers dir a v s = (s.watchers dir a).foldl (invoke (dispatch 65535) dir a v) s := by
  unfold runHandlers
  rw [if_neg (by simp [hs]), if_neg (by simp [h])]
  rfl

/-- A dispatch with no handler changes nothing. -/
theorem runHandlers_of_none {dir : Dir} {a : Word} {s : State} (v : Byte) (h : s.watchers dir a = []) :
    runHandlers dir a v s = s := by
  cases hs : s.diverged with
  | true => exact if_pos hs
  | false =>
    have hd : dispatch firstDepth dir a v s = s := by
      show (s.watchers dir a).foldl _ s = s
      rw [h]
      rfl
    rw [runHandlers_of_first (by rw [hd, hs]) hs, h]
    rfl

/-- An access at an address with no handler, or under suppression, runs none (20_memory.md R72). -/
theorem afterRead_of_quiet {s : State} {a : Word} (h : s.quietRead a) : s.afterRead a = s := by
  rcases h with h | h
  · simp [State.afterRead, afterAccess, h]
  · simp [State.afterRead, afterAccess, runHandlers_of_none _ h]

/-- A write at an address with no handler, or under suppression, is the array write alone (20_memory.md R73). -/
theorem memWrite_of_quiet {s : State} {a : Word} (v : Byte) (h : s.quietWrite a) :
    s.memWrite a v = s.poke a v := by
  rcases h with h | h
  · simp [State.memWrite, afterAccess, h]
  · simp [State.memWrite, afterAccess, runHandlers_of_none (dir := .write) (s := s.poke a v) v h]

theorem silent_quietRead {s : State} (h : s.Silent) (a : Word) : s.quietRead a :=
  h.2.imp_right fun h => by simp [State.watchers, h.1, lookupAt]

theorem silent_afterRead {s : State} (h : s.Silent) (a : Word) : s.afterRead a = s :=
  afterRead_of_quiet (silent_quietRead h a)

theorem silent_memWrite {s : State} (h : s.Silent) (a : Word) (v : Byte) : s.memWrite a v = s.poke a v :=
  memWrite_of_quiet v (h.2.imp_right fun h => by simp [State.watchers, h.2, lookupAt])

/-- The pointer reads of an addressing mode change nothing where no handler runs. -/
theorem silent_effectiveAddress {s : State} (h : s.Silent) (m : MemMode) : (effectiveAddress m s).2 = s := by
  cases m <;>
    simp [effectiveAddress, State.readShortZeroPage, State.readPair, State.memRead, silent_afterRead h]

/-! Accesses of a calm state always return. -/

/-- Where no unsuppressed access of a handler is possible, its program does not diverge. -/
theorem runProg_calm (disp : Dir → Word → Byte → State → State) (v : Byte) (p : HandlerProg) (s : State)
    (h : p.busFree = true ∨ s.suppress = true) :
    (runProg disp v p s).diverged = s.diverged ∧ (runProg disp v p s).suppress = s.suppress := by
  induction p generalizing s with
  | done => exact ⟨rfl, rfl⟩
  | stop rest ih => exact ih _ h
  | memRead a rest ih =>
    have hs : s.suppress = true := h.resolve_left (by simp [HandlerProg.busFree])
    simpa [runProg, afterAccess, hs] using ih s (.inr hs)
  | memWrite a e rest ih =>
    have hs : s.suppress = true := h.resolve_left (by simp [HandlerProg.busFree])
    simpa [runProg, afterAccess, hs] using ih (s.poke a (evalByteArg v e)) (.inr hs)
  | suppressed body rest ihb ihr =>
    have hb := ihb (s.setSuppress true) (.inr rfl)
    have hr := ihr ((runProg disp v body (s.setSuppress true)).setSuppress s.suppress) h
    exact ⟨hr.1.trans hb.1, hr.2⟩
  | addReadWatch a n rest ih => exact ih _ h
  | addWriteWatch a n rest ih => exact ih _ h
  | refusedCall c rest ih => exact ih _ h

theorem extProg_busFree {cfg : Config} (h : cfg.extHandler.all (fun r => r.prog.busFree) = true) (n : Nat) (dir : Dir)
    (a : Word) (v : Byte) : (extProg cfg n dir a v).busFree = true := by
  unfold extProg
  split
  · next r hr => exact List.all_eq_true.1 h r (List.mem_of_find?_eq_some hr)
  · rfl

/-- `invoke` leaves a calm state calm. -/
theorem invoke_calm (disp : Dir → Word → Byte → State → State) (dir : Dir) (a : Word) (v : Byte) {s : State}
    (h : s.Calm) (g : Handler) (hcfg : (invoke disp dir a v s g).cfg = s.cfg) : (invoke disp dir a v s g).Calm := by
  refine ⟨?_, hcfg ▸ h.2⟩
  cases g with
  | kbdRead => exact h.1
  | kbdcrWrite => exact h.1
  | dspWrite =>
    show (State.poke _ _ _).diverged = false
    split <;> exact h.1
  | dspcrWrite => exact h.1
  | ext n =>
    exact ((runProg_calm disp v _ (s.emit (.watchFired n dir a v)) (.inl (extProg_busFree h.2 n dir a v))).1).trans h.1

theorem dispatch_calm (depth : Nat) (dir : Dir) (a : Word) (v : Byte) {s : State} (h : s.Calm) :
    (dispatch (depth + 1) dir a v s).Calm := by
  have aux : ∀ (hs : List Handler) (s : State), s.Calm → (hs.foldl (invoke (dispatch depth) dir a v) s).Calm := by
    intro hs
    induction hs with
    | nil => exact fun s hs => hs
    | cons g hs ih =>
      exact fun s hc => ih _ (invoke_calm _ dir a v hc g
        (invoke_closed sameCpu_closed (dispatch_closed sameCpu_closed depth) dir a v s g).cfg)
  exact aux _ s h

/-- The dispatch of a calm state returns at the first depth. -/
theorem runHandlers_of_calm (dir : Dir) (a : Word) (v : Byte) {s : State} (h : s.Calm) :
    runHandlers dir a v s = (s.watchers dir a).foldl (invoke (dispatch 65535) dir a v) s :=
  runHandlers_of_first (dispatch_calm 65535 dir a v h).1 h.1

theorem runHandlers_calm (dir : Dir) (a : Word) (v : Byte) {s : State} (h : s.Calm) : (runHandlers dir a v s).Calm := by
  rw [runHandlers_of_calm dir a v h]
  exact dispatch_calm 65535 dir a v h

theorem afterRead_calm {s : State} (h : s.Calm) (a : Word) : (s.afterRead a).Calm := by
  unfold State.afterRead afterAccess
  split
  · exact h
  · exact runHandlers_calm .read a _ h

theorem memWrite_calm {s : State} (h : s.Calm) (a : Word) (v : Byte) : (s.memWrite a v).Calm := by
  unfold State.memWrite afterAccess
  split
  · exact h
  · exact runHandlers_calm .write a v (s := s.poke a v) h

theorem readPair_calm {s : State} (h : s.Calm) (lo hi : Word) : (s.readPair lo hi).2.Calm :=
  afterRead_calm (afterRead_calm h lo) hi

theorem effectiveAddress_calm {s : State} (h : s.Calm) (m : MemMode) : (effectiveAddress m s).2.Calm := by
  cases m with
  | indx z => exact readPair_calm h _ _
  | indy z => exact readPair_calm h _ _
  | zp | zpx | zpy | abs | absx | absy => exact h

/-- A calm state's step ends in a next state. -/
theorem finish_calm {s : State} (h : s.Calm) : finish s = .next s := by simp [finish, h.1]

/-- A step that ends in a next state ends in a state that has not diverged. -/
theorem finish_eq_next {s t : State} (h : finish s = .next t) : t = s ∧ s.diverged = false := by
  unfold finish at h
  split at h
  · cases h
  · next hd => exact ⟨(Host.Outcome.next.inj h).symm, by simpa using hd⟩

theorem complete_eq_next {op : Byte} {s t : State} (h : complete op s = .next t) :
    t = s.setCycles (s.cycles + cycleCostOf s.cfg op) ∧ s.diverged = false := finish_eq_next h

theorem complete_calm {op : Byte} {s : State} (h : s.Calm) :
    complete op s = .next (s.setCycles (s.cycles + cycleCostOf s.cfg op)) := by
  simp [complete, finish, h.1]

/-! Accesses where host handlers only record (20_memory.md R79): no handler but the PIA's writes memory, and those write KBDCR
and DSP. -/

/-- A host handler with the default ExtHandler emits its event and does nothing else (20_memory.md R79). -/
theorem invoke_ext_of_recordOnly (disp : Dir → Word → Byte → State → State) (dir : Dir) (a : Word) (v : Byte) {s : State}
    (h : s.cfg.extHandler = []) (n : Nat) : invoke disp dir a v s (.ext n) = s.emit (.watchFired n dir a v) := by
  simp [invoke, extProg, h, runProg]

theorem invoke_peek_of_recordOnly (disp : Dir → Word → Byte → State → State) (dir : Dir) (a : Word) (v : Byte) {s : State}
    (h : s.cfg.extHandler = []) (g : Handler) {k : Word} (hk : s.index k ≠ s.index s.kbdcr)
    (hd : s.index k ≠ s.index s.dsp) :
    (invoke disp dir a v s g).peek k = s.peek k ∧ (invoke disp dir a v s g).cfg = s.cfg := by
  cases g with
  | kbdRead => exact ⟨peek_poke_ne _ _ _ _ hk, rfl⟩
  | kbdcrWrite => exact ⟨peek_poke_ne _ _ _ _ hk, rfl⟩
  | dspWrite =>
    simp only [invoke, dspWrite]
    split
    · exact ⟨peek_poke_ne (s.emit _) s.dsp k _ hd, rfl⟩
    · exact ⟨peek_poke_ne s s.dsp k _ hd, rfl⟩
  | dspcrWrite => exact ⟨rfl, rfl⟩
  | ext n => rw [invoke_ext_of_recordOnly disp dir a v h]; exact ⟨rfl, rfl⟩

theorem runHandlers_peek_of_recordOnly (dir : Dir) (a : Word) (v : Byte) {s : State} (h : s.cfg.extHandler = []) {k : Word}
    (hk : s.index k ≠ s.index s.kbdcr) (hd : s.index k ≠ s.index s.dsp) :
    (runHandlers dir a v s).peek k = s.peek k := by
  cases hv : s.diverged with
  | true => rw [show runHandlers dir a v s = s from if_pos hv]
  | false =>
  rw [runHandlers_of_calm dir a v ⟨hv, by rw [h]; rfl⟩]
  clear hv
  generalize s.watchers dir a = hs
  induction hs generalizing s with
  | nil => rfl
  | cons g hs ih =>
    obtain ⟨hp, hc⟩ := invoke_peek_of_recordOnly (dispatch 65535) dir a v h g hk hd
    rw [List.foldl_cons, ih (by rw [hc, h]) (by simpa only [State.index, State.kbdcr, hc] using hk)
      (by simpa only [State.index, State.dsp, hc] using hd), hp]

/-- A read changes no byte but KBDCR and DSP. -/
theorem afterRead_peek_of_recordOnly {s : State} (h : s.cfg.extHandler = []) (a : Word) {k : Word}
    (hk : s.index k ≠ s.index s.kbdcr) (hd : s.index k ≠ s.index s.dsp) : (s.afterRead a).peek k = s.peek k := by
  unfold State.afterRead afterAccess
  split
  · rfl
  · exact runHandlers_peek_of_recordOnly _ _ _ h hk hd

/-- A write changes no byte but the one written, KBDCR and DSP. -/
theorem memWrite_peek_of_recordOnly {s : State} (h : s.cfg.extHandler = []) (a : Word) (v : Byte) {k : Word}
    (hka : s.index k ≠ s.index a) (hk : s.index k ≠ s.index s.kbdcr) (hd : s.index k ≠ s.index s.dsp) :
    (s.memWrite a v).peek k = s.peek k := by
  rw [← peek_poke_ne s a k v hka]
  unfold State.memWrite afterAccess
  split
  · rfl
  · exact runHandlers_peek_of_recordOnly (s := s.poke a v) _ _ _ h hk hd

end Sys2Proof.Machine
end

