-- ==== Sys2Proof/Laws/Exec.lean ====
section
/-! SUPPORT. What executing an instruction can do, said once. Every mnemonic is of one of five shapes, and `exec` is the end of
the step after the shape's effect; a relation that bus accesses and register writes keep holds between the states before
and after any instruction and any step (`CpuClosed`). -/

namespace Sys2Proof.Machine

/-! The shapes. -/

/-- The mnemonics that read an operand value M, with their effect of M. -/
def valueEffect : Mnemonic → Option (Byte → State → State)
  | .lda => some lda
  | .ldx => some ldx
  | .ldy => some ldy
  | .adc => some adc
  | .sbc => some sbc
  | .and => some logicAnd
  | .ora => some logicOra
  | .eor => some logicEor
  | .cmp => some cmpA
  | .cpx => some cmpX
  | .cpy => some cmpY
  | .bit => some bitTest
  | _ => none

/-- The mnemonics that store a register, with that register. -/
def storedRegister : Mnemonic → Option (State → Byte)
  | .sta => some State.a
  | .stx => some State.x
  | .sty => some State.y
  | _ => none

/-- The mnemonics that modify their operand, with the operation. -/
def modifyAlu : Mnemonic → Option (Byte → Flags → Byte × Flags)
  | .inc => some incAlu
  | .dec => some decAlu
  | .asl => some aslAlu
  | .lsr => some lsrAlu
  | .rol => some rolAlu
  | .ror => some rorAlu
  | _ => none

/-- The effect of a branch mnemonic with that condition, from its operand. -/
def onRel (cond : Flags → Bool) (o : Operand) (s : State) : State :=
  match o with
  | .rel d => branch (cond s.flags) d s
  | _ => s

/-- The effect of JMP from its operand. -/
def jumpTo (o : Operand) (s : State) : State :=
  match o with
  | .mem (.abs w) => s.setPc w
  | .ind w => (indirectTarget w s).2.setPc (indirectTarget w s).1
  | _ => s

/-- The effect of JSR from its operand. -/
def callTo (o : Operand) (s : State) : State :=
  match o with
  | .mem (.abs w) => callSubroutine w s
  | _ => s

/-- The mnemonics whose effect reads no value of an operand, apart from BRK and RTI, with that effect. -/
def plainEffect : Mnemonic → Option (Operand → State → State)
  | .inx => some fun _ s => (s.setX (s.x + 1)).setFlags (setNZ (s.x + 1) s.flags)
  | .iny => some fun _ s => (s.setY (s.y + 1)).setFlags (setNZ (s.y + 1) s.flags)
  | .dex => some fun _ s => (s.setX (s.x - 1)).setFlags (setNZ (s.x - 1) s.flags)
  | .dey => some fun _ s => (s.setY (s.y - 1)).setFlags (setNZ (s.y - 1) s.flags)
  | .bpl => some (onRel fun f => !f.n)
  | .bmi => some (onRel fun f => f.n)
  | .bvc => some (onRel fun f => !f.v)
  | .bvs => some (onRel fun f => f.v)
  | .bcc => some (onRel fun f => !f.c)
  | .bcs => some (onRel fun f => f.c)
  | .bne => some (onRel fun f => !f.z)
  | .beq => some (onRel fun f => f.z)
  | .tax => some fun _ s => (s.setX s.a).setFlags (setNZ s.a s.flags)
  | .txa => some fun _ s => (s.setA s.x).setFlags (setNZ s.x s.flags)
  | .tay => some fun _ s => (s.setY s.a).setFlags (setNZ s.a s.flags)
  | .tya => some fun _ s => (s.setA s.y).setFlags (setNZ s.y s.flags)
  | .tsx => some fun _ s => (s.setX s.sp).setFlags (setNZ s.sp s.flags)
  | .txs => some fun _ s => s.setSp s.x
  | .pha => some fun _ s => push s.a s
  | .php => some fun _ s => push (packP s.cfg.phpBits54 s.flags) s
  | .pla => some fun _ s => ((pull s).2.setA (pull s).1).setFlags (setNZ (pull s).1 (pull s).2.flags)
  | .plp => some fun _ s => (pull s).2.setFlags (unpackP (pull s).1)
  | .jmp => some jumpTo
  | .jsr => some callTo
  | .rts => some fun _ s => returnSubroutine s
  | .sec => some fun _ s => s.setFlags { s.flags with c := true }
  | .sed => some fun _ s => s.setFlags { s.flags with d := true }
  | .sei => some fun _ s => s.setFlags { s.flags with i := true }
  | .clc => some fun _ s => s.setFlags { s.flags with c := false }
  | .cld => some fun _ s => s.setFlags { s.flags with d := false }
  | .cli => some fun _ s => s.setFlags { s.flags with i := false }
  | .clv => some fun _ s => s.setFlags { s.flags with v := false }
  | .nop => some fun _ s => s
  | _ => none

theorem exec_value {i : Instr} {eff : Byte → State → State} (h : valueEffect i.mnemonic = some eff) (s : State) :
    ∃ m s1, operandValue i.operand s = some (m, s1) ∧ exec i s = complete i.opcode (eff m s1) := by
  cases i <;> first
    | (cases h; exact ⟨_, _, rfl, rfl⟩)
    | cases h

theorem exec_store {i : Instr} {reg : State → Byte} (h : storedRegister i.mnemonic = some reg) (s : State) :
    ∃ m, i.operand = .mem m ∧ exec i s = complete i.opcode (storeMem m reg s) := by
  cases i <;> first
    | (cases h; exact ⟨_, rfl, rfl⟩)
    | cases h

theorem exec_modify {i : Instr} {alu : Byte → Flags → Byte × Flags} (h : modifyAlu i.mnemonic = some alu) (s : State) :
    (i.operand = .acc ∧ exec i s = complete i.opcode (modifyAcc alu s)) ∨
      ∃ m, i.operand = .mem m ∧ exec i s = complete i.opcode (modifyMem m alu s) := by
  cases i <;> first
    | (cases h; exact .inl ⟨rfl, rfl⟩)
    | (cases h; exact .inr ⟨_, rfl, rfl⟩)
    | cases h

theorem exec_plain {i : Instr} {eff : Operand → State → State} (h : plainEffect i.mnemonic = some eff) (s : State) :
    exec i s = complete i.opcode (eff i.operand s) := by
  cases i <;> cases h <;> rfl

theorem eq_brk {i : Instr} (h : i.mnemonic = .brk) : i = .brk := by
  cases i <;> first
    | rfl
    | cases h

theorem eq_rti {i : Instr} (h : i.mnemonic = .rti) : i = .rti := by
  cases i <;> first
    | rfl
    | cases h

/-- Every mnemonic is of one of the shapes. -/
theorem mnemonic_shape (mn : Mnemonic) :
    (∃ eff, valueEffect mn = some eff) ∨ (∃ reg, storedRegister mn = some reg) ∨ (∃ alu, modifyAlu mn = some alu) ∨
      (∃ eff, plainEffect mn = some eff) ∨ mn = .brk ∨ mn = .rti := by
  cases mn <;> first
    | exact .inl ⟨_, rfl⟩
    | exact .inr (.inl ⟨_, rfl⟩)
    | exact .inr (.inr (.inl ⟨_, rfl⟩))
    | exact .inr (.inr (.inr (.inl ⟨_, rfl⟩)))
    | exact .inr (.inr (.inr (.inr (.inl rfl))))
    | exact .inr (.inr (.inr (.inr (.inr rfl))))

/-- Every instruction is of one of the shapes. -/
theorem instr_shape (i : Instr) :
    (∃ eff, valueEffect i.mnemonic = some eff) ∨ (∃ reg, storedRegister i.mnemonic = some reg) ∨
      (∃ alu, modifyAlu i.mnemonic = some alu) ∨ (∃ eff, plainEffect i.mnemonic = some eff) ∨ i = .brk ∨ i = .rti := by
  rcases mnemonic_shape i.mnemonic with h | h | h | h | h | h
  · exact .inl h
  · exact .inr (.inl h)
  · exact .inr (.inr (.inl h))
  · exact .inr (.inr (.inr (.inl h)))
  · exact .inr (.inr (.inr (.inr (.inl (eq_brk h)))))
  · exact .inr (.inr (.inr (.inr (.inr (eq_rti h)))))

/-- The instruction and the state after the opcode and operand fetch of a step whose opcode has that format. -/
def fetched (f : Form) (s : State) : Instr × State := fetchOperand f ((s.afterRead s.pc).setPc (s.pc + 1))

/-- A step of a running machine with a written PC, by the format of the opcode at PC (30_encoding.md R130). -/
theorem running_step {s : State} (h1 : s.running = true) (h2 : s.written.pc = true) :
    step s = match decodeOpcode s.cfg.enableBrkRti (s.peek s.pc) with
      | none => finish (raiseUnimplemented (s.peek s.pc) s.pc (s.afterRead s.pc))
      | some f => execute (s.peek s.pc) s.pc (fetched f s).1 (fetched f s).2 := by
  have h3 : step s = match decodeOpcode (s.afterRead s.pc).cfg.enableBrkRti (s.peek s.pc) with
      | none => finish (raiseUnimplemented (s.peek s.pc) s.pc (s.afterRead s.pc))
      | some f => execute (s.peek s.pc) s.pc (fetched f s).1 (fetched f s).2 := by
    unfold step oneStep runStep
    rw [if_pos h1, if_pos h2]
    rfl
  rw [h3, afterRead_cfg]

/-- With every register written, `execute` is `exec` (00_scope.md R6). -/
theorem execute_of_written {s : State} (h : s.written = .every true) (op : Byte) (pc0 : Word) (i : Instr) :
    execute op pc0 i s = exec i s := if_pos h

/-- The three ways an instruction executes (60_exceptions.md R404): with every register written; up to its first read of an
unwritten one; or to its end, its writes settled. -/
theorem execute_cases (op : Byte) (pc0 : Word) (i : Instr) (s : State) :
    execute op pc0 i s = exec i s ∨
      (∃ t, firstUnwritten i s = some t ∧ execute op pc0 i s = finish (raiseUndefinedRead (some op) (some pc0) t)) ∨
      ((∃ t, exec i s = .next t ∧ execute op pc0 i s = .next (settleWrites op pc0 i s t)) ∨
        ∃ r, exec i s = .fault r ∧ execute op pc0 i s = .fault r) := by
  unfold execute
  split
  · exact .inl rfl
  · cases firstUnwritten i s with
    | some t => exact .inr (.inl ⟨t, rfl, rfl⟩)
    | none =>
      cases he : exec i s with
      | next t => exact .inr (.inr (.inl ⟨t, rfl, rfl⟩))
      | fault r => exact .inr (.inr (.inr ⟨r, rfl, rfl⟩))
      | refused r => exact .inl rfl

/-- The four ways a step goes (30_encoding.md R130): not running; PC unwritten; an unmapped opcode; an instruction. -/
theorem step_cases (s : State) :
    step s = finish s ∨ step s = finish (raiseUndefinedRead none none s) ∨
      step s = finish (raiseUnimplemented (s.peek s.pc) s.pc (s.afterRead s.pc)) ∨
      ∃ f, decodeOpcode s.cfg.enableBrkRti (s.peek s.pc) = some f ∧
        step s = execute (s.peek s.pc) s.pc (fetched f s).1 (fetched f s).2 := by
  cases h1 : s.running with
  | false => exact .inl (if_neg (by simp [h1]))
  | true =>
    cases h2 : s.written.pc with
    | false => exact .inr (.inl ((if_pos h1).trans (if_neg (by simp [h2]))))
    | true =>
      rw [running_step h1 h2]
      cases decodeOpcode s.cfg.enableBrkRti (s.peek s.pc) with
      | none => exact .inr (.inr (.inl rfl))
      | some f => exact .inr (.inr (.inr ⟨f, rfl, rfl⟩))

/-! The written marks. -/

theorem mark_has (w : Written) (r q : Reg) (h : w.has q = true) : (w.mark r).has q = true := by
  cases r <;> cases q <;> first
    | rfl
    | exact h

theorem foldl_mark_has (regs : List Reg) (w : Written) (q : Reg) (h : w.has q = true) :
    (regs.foldl Written.mark w).has q = true := by
  induction regs generalizing w with
  | nil => exact h
  | cons r regs ih => exact ih _ (mark_has w r q h)

theorem foldl_mark_keeps (regs : List Reg) (w : Written) (q : Reg) (hq : q ∉ regs) :
    (regs.foldl Written.mark w).has q = w.has q := by
  induction regs generalizing w with
  | nil => rfl
  | cons r regs ih =>
    rw [List.foldl_cons, ih _ fun h => hq (List.mem_cons_of_mem _ h)]
    have hr : q ≠ r := fun h => hq (h ▸ List.mem_cons_self ..)
    cases r <;> cases q <;> first
      | rfl
      | exact absurd rfl hr

/-- Where every register is written, it stays so. -/
theorem foldl_mark_every (regs : List Reg) : regs.foldl Written.mark (.every true) = .every true := by
  induction regs with
  | nil => rfl
  | cons r regs ih =>
    have hr : (Written.every true).mark r = .every true := by cases r <;> rfl
    rw [List.foldl_cons, hr, ih]

/-- No instruction's rule writes `cycles`, or PC as a destination. -/
theorem destinations_no_pc_cycles (i : Instr) : Reg.pc ∉ destinations i ∧ Reg.cycles ∉ destinations i := by
  have h : Reg.pc ∉ ruleWrites i.mnemonic ∧ Reg.cycles ∉ ruleWrites i.mnemonic := by
    cases i.mnemonic <;> decide
  unfold destinations
  split
  · exact ⟨by simp [h.1], by simp [h.2]⟩
  · exact h

/-! Closed relations. -/

/-- A relation kept by bus accesses and by every register write of an instruction. -/
structure CpuClosed (R : State → State → Prop) : Prop where
  bus : BusClosed R
  a : ∀ s v, R s (s.setA v)
  x : ∀ s v, R s (s.setX v)
  y : ∀ s v, R s (s.setY v)
  sp : ∀ s v, R s (s.setSp v)
  pc : ∀ s v, R s (s.setPc v)
  flags : ∀ s f, R s (s.setFlags f)
  cycles : ∀ s k, R s (s.setCycles k)

/-- Such a relation that taking a fault keeps too. -/
structure StepClosed (R : State → State → Prop) : Prop extends CpuClosed R where
  fault : ∀ s kind op pc, R s (s.emit (.fault kind op pc))
  mark : ∀ s t (regs : List Reg), R s t → t.written = s.written → Reg.pc ∉ regs → Reg.cycles ∉ regs →
    R s (t.setWritten (regs.foldl Written.mark s.written))

theorem operandValue_closed {R : State → State → Prop} (hR : BusClosed R) {o : Operand} {s s1 : State} {m : Byte}
    (h : operandValue o s = some (m, s1)) : R s s1 := by
  cases o with
  | imm v => obtain ⟨rfl, rfl⟩ := Prod.mk.inj (Option.some.inj h); exact hR.refl _
  | acc => obtain ⟨rfl, rfl⟩ := Prod.mk.inj (Option.some.inj h); exact hR.refl _
  | mem md =>
    obtain ⟨-, rfl⟩ := Prod.mk.inj (Option.some.inj h)
    exact hR.trans (effectiveAddress_closed hR md s) (afterRead_closed hR _ _)
  | imp => cases h
  | ind => cases h
  | rel => cases h

section closed
variable {R : State → State → Prop} (hR : CpuClosed R)
include hR

theorem push_closed (v : Byte) (s : State) : R s (push v s) :=
  hR.bus.trans (memWrite_closed hR.bus s _ v) (hR.sp _ _)

theorem pull_closed (s : State) : R s (pull s).2 := hR.bus.trans (hR.sp s _) (afterRead_closed hR.bus _ _)

theorem pushWord_closed (w : Word) (s : State) : R s (pushWord w s) :=
  hR.bus.trans (push_closed hR _ s) (push_closed hR _ _)

theorem pullWord_closed (s : State) : R s (pullWord s).2 := hR.bus.trans (pull_closed hR s) (pull_closed hR _)

theorem accumulate_closed (alu : Byte → Byte → Flags → Byte × Flags) (m : Byte) (s : State) : R s (accumulate alu m s) :=
  hR.bus.trans (hR.a s _) (hR.flags _ _)

theorem valueEffect_closed {mn : Mnemonic} {eff : Byte → State → State} (h : valueEffect mn = some eff) (m : Byte)
    (s : State) : R s (eff m s) := by
  cases mn <;> cases h <;> first
    | exact accumulate_closed hR _ m s
    | exact hR.flags s _
    | exact hR.bus.trans (hR.a s _) (hR.flags _ _)
    | exact hR.bus.trans (hR.x s _) (hR.flags _ _)
    | exact hR.bus.trans (hR.y s _) (hR.flags _ _)

theorem storeMem_closed (m : MemMode) (reg : State → Byte) (s : State) : R s (storeMem m reg s) :=
  hR.bus.trans (effectiveAddress_closed hR.bus m s) (memWrite_closed hR.bus _ _ _)

theorem modifyAcc_closed (alu : Byte → Flags → Byte × Flags) (s : State) : R s (modifyAcc alu s) :=
  hR.bus.trans (hR.a s _) (hR.flags _ _)

theorem modifyMem_closed (m : MemMode) (alu : Byte → Flags → Byte × Flags) (s : State) : R s (modifyMem m alu s) :=
  hR.bus.trans (effectiveAddress_closed hR.bus m s)
    (hR.bus.trans (afterRead_closed hR.bus _ _) (hR.bus.trans (memWrite_closed hR.bus _ _ _) (hR.flags _ _)))

theorem branch_closed (cond : Bool) (d : Byte) (s : State) : R s (branch cond d s) := by
  unfold branch
  split
  · exact hR.pc s _
  · exact hR.bus.refl s

theorem onRel_closed (cond : Flags → Bool) (o : Operand) (s : State) : R s (onRel cond o s) := by
  cases o with
  | rel d => exact branch_closed hR _ d s
  | imp | acc | imm | mem | ind => exact hR.bus.refl s

theorem jumpTo_closed (o : Operand) (s : State) : R s (jumpTo o s) := by
  unfold jumpTo
  split
  · exact hR.pc s _
  · exact hR.bus.trans (readPair_closed hR.bus s _ _) (hR.pc _ _)
  · exact hR.bus.refl s

theorem callTo_closed (o : Operand) (s : State) : R s (callTo o s) := by
  unfold callTo
  split
  · exact hR.bus.trans (pushWord_closed hR _ s) (hR.pc _ _)
  · exact hR.bus.refl s

theorem plainEffect_closed {mn : Mnemonic} {eff : Operand → State → State} (h : plainEffect mn = some eff) (o : Operand)
    (s : State) : R s (eff o s) := by
  cases mn <;> cases h <;> first
    | exact onRel_closed hR _ o s
    | exact jumpTo_closed hR o s
    | exact callTo_closed hR o s
    | exact hR.bus.refl s
    | exact hR.flags s _
    | exact hR.sp s _
    | exact push_closed hR _ s
    | exact hR.bus.trans (hR.a s _) (hR.flags _ _)
    | exact hR.bus.trans (hR.x s _) (hR.flags _ _)
    | exact hR.bus.trans (hR.y s _) (hR.flags _ _)
    | exact hR.bus.trans (pull_closed hR s) (hR.flags _ _)
    | exact hR.bus.trans (pull_closed hR s) (hR.bus.trans (hR.a _ _) (hR.flags _ _))
    | exact hR.bus.trans (pullWord_closed hR s) (hR.pc _ _)

theorem enterBreak_closed (s : State) : R s (enterBreak s) :=
  hR.bus.trans (pushWord_closed hR _ s) (hR.bus.trans (push_closed hR _ _) (hR.bus.trans (hR.flags _ _)
    (hR.bus.trans (readPair_closed hR.bus _ _ _) (hR.pc _ _))))

theorem returnFromBreak_closed (s : State) : R s (returnFromBreak s) :=
  hR.bus.trans (pull_closed hR s) (hR.bus.trans (hR.flags _ _) (hR.bus.trans (pullWord_closed hR _) (hR.pc _ _)))

theorem fetchOperand_closed (f : Form) (s : State) : R s (fetchOperand f s).2 := by
  cases f with
  | f1 i => exact hR.bus.refl s
  | f2 mk => exact hR.bus.trans (afterRead_closed hR.bus s _) (hR.pc _ _)
  | f3 mk => exact hR.bus.trans (readPair_closed hR.bus s _ _) (hR.pc _ _)

theorem fetched_closed (f : Form) (s : State) : R s (fetched f s).2 :=
  hR.bus.trans (hR.bus.trans (afterRead_closed hR.bus s _) (hR.pc _ _)) (fetchOperand_closed hR f _)

end closed

/-- What executing an instruction can do: it completes with an effect made of bus accesses and register writes, or, as BRK
or RTI that the configuration does not have, it takes the fault. -/
theorem exec_cases (i : Instr) (s : State) :
    (∃ u, exec i s = complete i.opcode u ∧ ∀ R, CpuClosed R → R s u) ∨
      (i.wf s.cfg = false ∧ exec i s = finish (raiseUnimplemented i.opcode (s.pc - 1) s)) := by
  rcases instr_shape i with ⟨eff, he⟩ | ⟨reg, he⟩ | ⟨alu, he⟩ | ⟨eff, he⟩ | rfl | rfl
  · obtain ⟨m, s1, h1, h2⟩ := exec_value he s
    exact .inl ⟨_, h2, fun R hR => hR.bus.trans (operandValue_closed hR.bus h1) (valueEffect_closed hR he m s1)⟩
  · obtain ⟨m, -, h2⟩ := exec_store he s
    exact .inl ⟨_, h2, fun R hR => storeMem_closed hR m reg s⟩
  · rcases exec_modify he s with ⟨-, h2⟩ | ⟨m, -, h2⟩
    · exact .inl ⟨_, h2, fun R hR => modifyAcc_closed hR alu s⟩
    · exact .inl ⟨_, h2, fun R hR => modifyMem_closed hR m alu s⟩
  · exact .inl ⟨_, exec_plain he s, fun R hR => plainEffect_closed hR he _ s⟩
  · cases hb : s.cfg.enableBrkRti with
    | true => exact .inl ⟨_, if_pos hb, fun R hR => enterBreak_closed hR s⟩
    | false => exact .inr ⟨by simp [Instr.wf, hb], if_neg (by simp [hb])⟩
  · cases hb : s.cfg.enableBrkRti with
    | true => exact .inl ⟨_, if_pos hb, fun R hR => returnFromBreak_closed hR s⟩
    | false => exact .inr ⟨by simp [Instr.wf, hb], if_neg (by simp [hb])⟩

theorem finish_closed {R : State → State → Prop} {s t u : State} (h : R s t) (hf : finish t = .next u) : R s u :=
  (finish_eq_next hf).1 ▸ h

theorem complete_closed {R : State → State → Prop} (hR : CpuClosed R) {op : Byte} {s t u : State} (h : R s t)
    (hf : complete op t = .next u) : R s u := (complete_eq_next hf).1 ▸ hR.bus.trans h (hR.cycles t _)

/-- `exec` writes no mark. -/
theorem exec_written {i : Instr} {s t : State} (h : exec i s = .next t) : t.written = s.written := by
  have hR : CpuClosed (fun s t => t.written = s.written) :=
    { bus := sameWritten_closed
      a := fun _ _ => rfl, x := fun _ _ => rfl, y := fun _ _ => rfl, sp := fun _ _ => rfl, pc := fun _ _ => rfl
      flags := fun _ _ => rfl, cycles := fun _ _ => rfl }
  rcases exec_cases i s with ⟨u, he, hu⟩ | ⟨-, he⟩ <;> rw [he] at h
  · exact complete_closed hR (hu _ hR) h
  · exact (finish_eq_next h).1 ▸ rfl

section step
variable {R : State → State → Prop} (hR : StepClosed R)
include hR

theorem raiseUnimplemented_closed (op : Byte) (pc0 : Word) (s : State) : R s (raiseUnimplemented op pc0 s) :=
  hR.bus.trans (hR.pc s _) (hR.bus.trans (hR.bus.stop _) (hR.fault _ _ _ _))

theorem raiseUndefinedRead_closed (op : Option Byte) (pc0 : Option Word) (s : State) :
    R s (raiseUndefinedRead op pc0 s) := hR.bus.trans (hR.bus.stop s) (hR.fault _ _ _ _)

/-- A closed relation holds between the states before and after any instruction. -/
theorem exec_closed {i : Instr} {s t : State} (h : exec i s = .next t) : R s t := by
  rcases exec_cases i s with ⟨u, he, hu⟩ | ⟨-, he⟩ <;> rw [he] at h
  · exact complete_closed hR.toCpuClosed (hu R hR.toCpuClosed) h
  · exact finish_closed (raiseUnimplemented_closed hR _ _ s) h

theorem firstUnwritten_closed {i : Instr} {s t : State} (h : firstUnwritten i s = some t) : R s t := by
  unfold firstUnwritten at h
  split at h
  · next m _ =>
    have hea := effectiveAddress_closed hR.bus m s
    split at h
    · dsimp only at h
      split at h
      · split at h
        · cases h
        · obtain rfl := Option.some.inj h
          split
          · exact hR.bus.trans hea (afterRead_closed hR.bus _ _)
          · exact hea
      · exact Option.some.inj h ▸ hea
    · exact Option.some.inj h ▸ hR.bus.refl s
  · split at h
    · cases h
    · exact Option.some.inj h ▸ hR.bus.refl s
  all_goals
    split at h
    · split at h
      · exact Option.some.inj h ▸ pushWord_closed hR.toCpuClosed _ s
      · cases h
    · exact Option.some.inj h ▸ hR.bus.refl s

theorem execute_closed {op : Byte} {pc0 : Word} {i : Instr} {s t : State} (h : execute op pc0 i s = .next t) : R s t := by
  rcases execute_cases op pc0 i s with he | ⟨u, hu, he⟩ | ⟨u, hu, he⟩ | ⟨r, -, he⟩ <;> rw [he] at h
  · exact exec_closed hR h
  · exact finish_closed (hR.bus.trans (firstUnwritten_closed hR hu) (raiseUndefinedRead_closed hR _ _ _)) h
  · obtain rfl := Host.Outcome.next.inj h
    have hm := hR.mark s u (destinations i) (exec_closed hR hu) (exec_written hu) (destinations_no_pc_cycles i).1
      (destinations_no_pc_cycles i).2
    unfold settleWrites
    dsimp only
    split
    · exact hm
    · exact hR.bus.trans hm (hR.bus.trans (hR.cycles _ _) (raiseUndefinedRead_closed hR _ _ _))
  · cases h

/-- A closed relation holds between the states before and after any step. -/
theorem step_closed {s t : State} (h : step s = .next t) : R s t := by
  rcases step_cases s with he | he | he | ⟨f, -, he⟩ <;> rw [he] at h
  · exact finish_closed (hR.bus.refl s) h
  · exact finish_closed (raiseUndefinedRead_closed hR _ _ s) h
  · exact finish_closed (hR.bus.trans (afterRead_closed hR.bus s _) (raiseUnimplemented_closed hR _ _ _)) h
  · exact hR.bus.trans (fetched_closed hR.toCpuClosed f s) (execute_closed hR h)

end step

/-! The stack operations where every access returns, and where no handler runs. -/

theorem push_calm {s : State} (h : s.Calm) (v : Byte) : (push v s).Calm := memWrite_calm h (stackAddr s.sp) v

theorem pull_calm {s : State} (h : s.Calm) : (pull s).2.Calm :=
  afterRead_calm (s := s.setSp (s.sp + 1)) h (stackAddr (s.sp + 1))

theorem pushWord_calm {s : State} (h : s.Calm) (w : Word) : (pushWord w s).Calm := push_calm (push_calm h _) _

theorem pullWord_calm {s : State} (h : s.Calm) : (pullWord s).2.Calm := pull_calm (pull_calm h)

/-- The pointer reads of an addressing mode change nothing where no handler runs for them. -/
theorem quiet_effectiveAddress {m : MemMode} {s : State} (h : ∀ a ∈ pointerAddrs m s, s.quietRead a) :
    (effectiveAddress m s).2 = s := by
  cases m with
  | indx z =>
    show (s.afterRead (zext (z + s.x))).afterRead (zext (z + s.x + 1)) = s
    rw [afterRead_of_quiet (h _ (.head _)), afterRead_of_quiet (h _ (.tail _ (.head _)))]
  | indy z =>
    show (s.afterRead (zext z)).afterRead (zext (z + 1)) = s
    rw [afterRead_of_quiet (h _ (.head _)), afterRead_of_quiet (h _ (.tail _ (.head _)))]
  | zp | zpx | zpy | abs | absx | absy => rfl

/-- A push of a slot no handler watches writes one byte. -/
theorem quiet_push {s : State} (h : s.quietWrite (stackAddr s.sp)) (v : Byte) :
    push v s = (s.poke (stackAddr s.sp) v).setSp (s.sp - 1) := by
  simp [push, memWrite_of_quiet v h]

/-- A pull of a slot no handler watches changes SP alone. -/
theorem quiet_pull {s : State} (h : s.quietRead (stackAddr (s.sp + 1))) :
    pull s = (s.peek (stackAddr (s.sp + 1)), s.setSp (s.sp + 1)) :=
  Prod.ext rfl (afterRead_of_quiet (s := s.setSp (s.sp + 1)) h)

theorem silent_push {s : State} (h : s.Silent) (v : Byte) : push v s = (s.poke (stackAddr s.sp) v).setSp (s.sp - 1) := by
  simp [push, silent_memWrite h]

theorem silent_pull {s : State} (h : s.Silent) : pull s = (s.peek (stackAddr (s.sp + 1)), s.setSp (s.sp + 1)) := by
  exact Prod.ext rfl (silent_afterRead (s := s.setSp (s.sp + 1)) h _)

end Sys2Proof.Machine
end

