-- ==== Sys2Proof/Laws/Cpu.lean ====
section
/-! SUPPORT. No handler reads the CPU: a bus access commutes with every write of a CPU register (20_memory.md R79,
60_exceptions.md R435). -/

namespace Sys2Proof.Machine

/-- The registers a bus access neither reads nor writes. -/
structure CpuRegs where
  a : Byte
  x : Byte
  y : Byte
  sp : Byte
  pc : Word
  flags : Flags
  cycles : Cycles
  written : Written

/-- All CPU registers at once. -/
def State.setCpu (c : CpuRegs) (s : State) : State :=
  { s with
    a := c.a, x := c.x, y := c.y, sp := c.sp, pc := c.pc, flags := c.flags, cycles := c.cycles, written := c.written }

/-- The CPU registers of a state. -/
def State.cpu (s : State) : CpuRegs := ⟨s.a, s.x, s.y, s.sp, s.pc, s.flags, s.cycles, s.written⟩

theorem SameCpu.cpu {s t : State} (h : SameCpu s t) : t.cpu = s.cpu := by
  simp only [State.cpu, h.a, h.x, h.y, h.sp, h.pc, h.flags, h.cycles, h.written]

/-- A change of the state that no handler sees and that commutes with every update a handler is made of. -/
structure BusCommutes (f : State → State) : Prop where
  cfg : ∀ s, (f s).cfg = s.cfg
  suppress : ∀ s, (f s).suppress = s.suppress
  latches : ∀ s, (f s).latches = s.latches
  watchers : ∀ s dir a, (f s).watchers dir a = s.watchers dir a
  peek : ∀ s a, (f s).peek a = s.peek a
  poke : ∀ s a v, (f s).poke a v = f (s.poke a v)
  setLatches : ∀ s l, (f s).setLatches l = f (s.setLatches l)
  emit : ∀ s e, (f s).emit e = f (s.emit e)
  stop : ∀ s, (f s).setRunning false = f (s.setRunning false)
  addRead : ∀ s a h, (f s).addReadWatch a h = f (s.addReadWatch a h)
  addWrite : ∀ s a h, (f s).addWriteWatch a h = f (s.addWriteWatch a h)
  refused : ∀ s, (f s).markRefused = f s.markRefused
  diverged : ∀ s, (f s).markDiverged = f s.markDiverged
  hasDiverged : ∀ s, (f s).diverged = s.diverged
  setSuppress : ∀ s b, (f s).setSuppress b = f (s.setSuppress b)

theorem setCpu_commutes (c : CpuRegs) : BusCommutes (State.setCpu c) :=
  ⟨fun _ => rfl, fun _ => rfl, fun _ => rfl, fun _ _ _ => rfl, fun _ _ => rfl, fun _ _ _ => rfl, fun _ _ => rfl,
    fun _ _ => rfl, fun _ => rfl, fun _ _ _ => rfl, fun _ _ _ => rfl, fun _ => rfl, fun _ => rfl, fun _ => rfl, fun _ _ => rfl⟩

/-- No handler reads `running` either: it can be cleared before an access or after it (60_exceptions.md R432). -/
theorem stop_commutes : BusCommutes (State.setRunning false) :=
  ⟨fun _ => rfl, fun _ => rfl, fun _ => rfl, fun _ _ _ => rfl, fun _ _ => rfl, fun _ _ _ => rfl, fun _ _ => rfl,
    fun _ _ => rfl, fun _ => rfl, fun _ _ _ => rfl, fun _ _ _ => rfl, fun _ => rfl, fun _ => rfl, fun _ => rfl, fun _ _ => rfl⟩

section commute
variable {f : State → State} (hf : BusCommutes f)
include hf

theorem afterAccess_comm {disp : Dir → Word → Byte → State → State}
    (hd : ∀ dir a v s, disp dir a v (f s) = f (disp dir a v s)) (dir : Dir) (a : Word) (v : Byte) (s : State) :
    afterAccess disp dir a v (f s) = f (afterAccess disp dir a v s) := by
  unfold afterAccess
  rw [hf.suppress]
  split
  · rfl
  · exact hd dir a v s

theorem runProg_comm {disp : Dir → Word → Byte → State → State}
    (hd : ∀ dir a v s, disp dir a v (f s) = f (disp dir a v s)) (v : Byte) (p : HandlerProg) (s : State) :
    runProg disp v p (f s) = f (runProg disp v p s) := by
  induction p generalizing s with
  | done => rfl
  | stop rest ih => simp only [runProg, hf.stop, ih]
  | memRead a rest ih => simp only [runProg, hf.peek, afterAccess_comm hf hd, ih]
  | memWrite a e rest ih => simp only [runProg, hf.poke, afterAccess_comm hf hd, ih]
  | suppressed body rest ihb ihr => simp only [runProg, hf.setSuppress, ihb, hf.suppress, ihr]
  | addReadWatch a h rest ih => simp only [runProg, hf.addRead, ih]
  | addWriteWatch a h rest ih => simp only [runProg, hf.addWrite, ih]
  | refusedCall k rest ih => simp only [runProg, hf.refused, ih]

theorem invoke_comm {disp : Dir → Word → Byte → State → State}
    (hd : ∀ dir a v s, disp dir a v (f s) = f (disp dir a v s)) (dir : Dir) (a : Word) (v : Byte) (s : State)
    (h : Handler) : invoke disp dir a v (f s) h = f (invoke disp dir a v s h) := by
  have hk : ∀ s, (f s).kbdcr = s.kbdcr := fun s => by simp only [State.kbdcr, hf.cfg]
  have hd' : ∀ s, (f s).dsp = s.dsp := fun s => by simp only [State.dsp, hf.cfg]
  cases h with
  | kbdRead => simp only [invoke, kbdRead, hf.latches, hf.setLatches, hk, hf.peek, hf.poke]
  | kbdcrWrite => simp only [invoke, kbdcrWrite, hf.latches, hf.setLatches, hk, hf.poke]
  | dspWrite =>
    simp only [invoke, dspWrite, hf.latches]
    split <;> simp only [hf.emit, hd', hf.poke]
  | dspcrWrite => simp only [invoke, dspcrWrite, hf.latches, hf.setLatches]
  | ext h => simp only [invoke, hf.cfg, hf.emit, runProg_comm hf hd]

theorem dispatch_comm (depth : Nat) (dir : Dir) (a : Word) (v : Byte) (s : State) :
    dispatch depth dir a v (f s) = f (dispatch depth dir a v s) := by
  induction depth generalizing dir a v s with
  | zero => exact hf.diverged s
  | succ depth ih =>
    show ((f s).watchers dir a).foldl _ (f s) = f ((s.watchers dir a).foldl _ s)
    rw [hf.watchers]
    generalize s.watchers dir a = hs
    induction hs generalizing s with
    | nil => rfl
    | cons h hs ihs =>
      rw [List.foldl_cons, List.foldl_cons, invoke_comm hf ih]
      exact ihs _

/-- A change that the results at every depth commute with commutes with the search. -/
theorem searchDepth_comm {result result' : Nat → State} (h : ∀ depth, result' depth = f (result depth)) (n : Nat) :
    searchDepth result' n = (searchDepth result n).map f := by
  have hd : ∀ depth, (result' depth).diverged = (result depth).diverged := fun depth => by rw [h, hf.hasDiverged]
  have key : ∀ {g g' : Nat → State}, (∀ depth, (g depth).diverged = (g' depth).diverged) → ∀ {n t},
      searchDepth g n = some t → ∃ depth, t = g depth ∧ searchDepth g' n = some (g' depth) := by
    intro g g' hg n t ht
    refine searchDepth.partial_correctness g
      (fun n t => ∃ depth, t = g depth ∧ searchDepth g' n = some (g' depth)) ?_ n t ht
    intro search ih n t ht
    rw [searchDepth.eq_1 g' n, ← hg n]
    split at ht
    · next hn => rw [if_pos hn]; exact ih _ _ ht
    · next hn => rw [if_neg hn]; exact ⟨n, (Option.some.inj ht).symm, rfl⟩
  cases hr : searchDepth result n with
  | some t =>
    obtain ⟨depth, rfl, hs⟩ := key (fun depth => (hd depth).symm) hr
    rw [hs, h]
    rfl
  | none =>
    cases hr' : searchDepth result' n with
    | none => rfl
    | some t =>
      obtain ⟨depth, -, hs⟩ := key hd hr'
      rw [hr] at hs
      cases hs

/-- A dispatch commutes with such a change. -/
theorem runHandlers_comm (dir : Dir) (a : Word) (v : Byte) (s : State) :
    runHandlers dir a v (f s) = f (runHandlers dir a v s) := by
  unfold runHandlers
  rw [hf.hasDiverged, dispatch_comm hf, hf.hasDiverged, hf.diverged,
    searchDepth_comm hf (fun depth => dispatch_comm hf depth dir a v s)]
  split
  · rfl
  · split
    · cases searchDepth (fun depth => dispatch depth dir a v s) firstDepth <;> rfl
    · rfl

/-- A read commutes with such a change. -/
theorem afterRead_comm (s : State) (a : Word) : (f s).afterRead a = f (s.afterRead a) := by
  unfold State.afterRead
  rw [hf.peek, afterAccess_comm hf (runHandlers_comm hf)]

/-- A write commutes with such a change. -/
theorem memWrite_comm (s : State) (a : Word) (v : Byte) : (f s).memWrite a v = f (s.memWrite a v) := by
  unfold State.memWrite
  rw [hf.poke, afterAccess_comm hf (runHandlers_comm hf)]

/-- The effective address and its pointer reads commute with it too, where it leaves the index registers. -/
theorem effectiveAddress_comm (hx : ∀ s, (f s).x = s.x) (hy : ∀ s, (f s).y = s.y) (m : MemMode) (s : State) :
    effectiveAddress m (f s) = ((effectiveAddress m s).1, f (effectiveAddress m s).2) := by
  cases m <;> simp [effectiveAddress, State.readShortZeroPage, State.readPair, State.memRead, hx, hy, afterRead_comm hf,
    hf.peek]

end commute

/-- A write of CPU registers, by the registers before it. -/
structure CpuUpdate (f : State → State) (g : CpuRegs → CpuRegs) : Prop where
  eq : ∀ s, f s = s.setCpu (g s.cpu)

section updates
variable {f : State → State} {g : CpuRegs → CpuRegs} (hf : CpuUpdate f g)
include hf

theorem afterRead_update (s : State) (a : Word) : (f s).afterRead a = f (s.afterRead a) := by
  rw [hf.eq s, hf.eq (s.afterRead a), (afterRead_sameCpu s a).cpu, afterRead_comm (setCpu_commutes _)]

theorem memWrite_update (s : State) (a : Word) (v : Byte) : (f s).memWrite a v = f (s.memWrite a v) := by
  rw [hf.eq s, hf.eq (s.memWrite a v), (memWrite_sameCpu s a v).cpu, memWrite_comm (setCpu_commutes _)]

end updates

section registers
variable (s : State) (a : Word) (v : Byte)

@[simp] theorem afterRead_setA (b : Byte) : (s.setA b).afterRead a = (s.afterRead a).setA b :=
  afterRead_update (f := State.setA b) (g := fun c => { c with a := b }) ⟨fun _ => rfl⟩ s a
@[simp] theorem afterRead_setX (b : Byte) : (s.setX b).afterRead a = (s.afterRead a).setX b :=
  afterRead_update (f := State.setX b) (g := fun c => { c with x := b }) ⟨fun _ => rfl⟩ s a
@[simp] theorem afterRead_setY (b : Byte) : (s.setY b).afterRead a = (s.afterRead a).setY b :=
  afterRead_update (f := State.setY b) (g := fun c => { c with y := b }) ⟨fun _ => rfl⟩ s a
@[simp] theorem afterRead_setSp (b : Byte) : (s.setSp b).afterRead a = (s.afterRead a).setSp b :=
  afterRead_update (f := State.setSp b) (g := fun c => { c with sp := b }) ⟨fun _ => rfl⟩ s a
@[simp] theorem afterRead_setPc (w : Word) : (s.setPc w).afterRead a = (s.afterRead a).setPc w :=
  afterRead_update (f := State.setPc w) (g := fun c => { c with pc := w }) ⟨fun _ => rfl⟩ s a
@[simp] theorem afterRead_setFlags (fl : Flags) : (s.setFlags fl).afterRead a = (s.afterRead a).setFlags fl :=
  afterRead_update (f := State.setFlags fl) (g := fun c => { c with flags := fl }) ⟨fun _ => rfl⟩ s a
@[simp] theorem afterRead_setCycles (k : Cycles) : (s.setCycles k).afterRead a = (s.afterRead a).setCycles k :=
  afterRead_update (f := State.setCycles k) (g := fun c => { c with cycles := k }) ⟨fun _ => rfl⟩ s a
@[simp] theorem memWrite_setA (b : Byte) : (s.setA b).memWrite a v = (s.memWrite a v).setA b :=
  memWrite_update (f := State.setA b) (g := fun c => { c with a := b }) ⟨fun _ => rfl⟩ s a v
@[simp] theorem memWrite_setX (b : Byte) : (s.setX b).memWrite a v = (s.memWrite a v).setX b :=
  memWrite_update (f := State.setX b) (g := fun c => { c with x := b }) ⟨fun _ => rfl⟩ s a v
@[simp] theorem memWrite_setY (b : Byte) : (s.setY b).memWrite a v = (s.memWrite a v).setY b :=
  memWrite_update (f := State.setY b) (g := fun c => { c with y := b }) ⟨fun _ => rfl⟩ s a v
@[simp] theorem memWrite_setSp (b : Byte) : (s.setSp b).memWrite a v = (s.memWrite a v).setSp b :=
  memWrite_update (f := State.setSp b) (g := fun c => { c with sp := b }) ⟨fun _ => rfl⟩ s a v
@[simp] theorem memWrite_setPc (w : Word) : (s.setPc w).memWrite a v = (s.memWrite a v).setPc w :=
  memWrite_update (f := State.setPc w) (g := fun c => { c with pc := w }) ⟨fun _ => rfl⟩ s a v
@[simp] theorem memWrite_setFlags (fl : Flags) : (s.setFlags fl).memWrite a v = (s.memWrite a v).setFlags fl :=
  memWrite_update (f := State.setFlags fl) (g := fun c => { c with flags := fl }) ⟨fun _ => rfl⟩ s a v
@[simp] theorem memWrite_setCycles (k : Cycles) : (s.setCycles k).memWrite a v = (s.memWrite a v).setCycles k :=
  memWrite_update (f := State.setCycles k) (g := fun c => { c with cycles := k }) ⟨fun _ => rfl⟩ s a v

end registers

/-- A push is one bus write at the slot of SP, then SP less one (10_state.md R38). -/
theorem push_eq (v : Byte) (s : State) : push v s = (s.memWrite (stackAddr s.sp) v).setSp (s.sp - 1) := by
  simp [push]

/-- A pull is one bus read at the slot above SP, SP being that slot afterwards (10_state.md R39). -/
theorem pull_eq (s : State) :
    pull s = (s.peek (stackAddr (s.sp + 1)), (s.afterRead (stackAddr (s.sp + 1))).setSp (s.sp + 1)) :=
  Prod.ext rfl (afterRead_setSp s _ (s.sp + 1))

/-- A pushed word is two bus writes, high byte first (20_memory.md R90). -/
theorem pushWord_eq (w : Word) (s : State) :
    pushWord w s = ((s.memWrite (stackAddr s.sp) (highByte w)).memWrite (stackAddr (s.sp - 1)) (lowByte w)).setSp
      (s.sp - 1 - 1) := by
  simp only [pushWord, push_eq, memWrite_setSp, setSp_sp]
  rfl

/-- A pulled word is two bus reads, low byte first (20_memory.md R90). -/
theorem pullWord_eq (s : State) :
    pullWord s = (joinBytes ((s.afterRead (stackAddr (s.sp + 1))).peek (stackAddr (s.sp + 1 + 1)))
        (s.peek (stackAddr (s.sp + 1))),
      ((s.afterRead (stackAddr (s.sp + 1))).afterRead (stackAddr (s.sp + 1 + 1))).setSp (s.sp + 1 + 1)) := by
  simp only [pullWord, pull_eq, afterRead_setSp, setSp_sp]
  rfl

/-- The entry BRK takes: three bus writes down the stack, I set, and the vector read (47_control_flags.md R361). -/
theorem enterBreak_eq (s : State) :
    let s3 := ((s.memWrite (stackAddr s.sp) (highByte (s.pc + 1))).memWrite (stackAddr (s.sp - 1))
      (lowByte (s.pc + 1))).memWrite (stackAddr (s.sp - 1 - 1)) (packBreak s.cfg.phpBits54 s.flags)
    enterBreak s = ((((s3.afterRead 0xFFFE).afterRead 0xFFFF).setSp (s.sp - 1 - 1 - 1)).setFlags
      { s.flags with i := true }).setPc (joinBytes ((s3.afterRead 0xFFFE).peek 0xFFFF) (s3.peek 0xFFFE)) := by
  intro s3
  unfold enterBreak
  simp only [pushWord_eq, push_eq, State.readShort, State.readPair, State.memRead, memWrite_setSp, afterRead_setSp,
    afterRead_setFlags, setSp_sp, setSp_flags, setSp_cfg, memWrite_flags, memWrite_cfg]
  rfl

/-- The return RTI makes: three bus reads up the stack (47_control_flags.md R362). -/
theorem returnFromBreak_eq (s : State) :
    let k1 := stackAddr (s.sp + 1)
    let k2 := stackAddr (s.sp + 1 + 1)
    let k3 := stackAddr (s.sp + 1 + 1 + 1)
    returnFromBreak s = (((((s.afterRead k1).afterRead k2).afterRead k3).setSp (s.sp + 1 + 1 + 1)).setFlags
      (unpackP (s.peek k1))).setPc
        (joinBytes (((s.afterRead k1).afterRead k2).peek k3) ((s.afterRead k1).peek k2)) := by
  unfold returnFromBreak
  simp only [pullWord_eq, pull_eq, afterRead_setSp, afterRead_setFlags, setSp_sp, setFlags_sp]
  rfl

end Sys2Proof.Machine
end

