-- ==== Sys2Proof/Laws/Dispatch.lean ====
section
/-! SUPPORT. Depth does not matter to a dispatch that returns: every depth that is enough gives the same result, so the
dispatch of 20_memory.md R78 has no bound. -/

namespace Sys2Proof.Machine

/-- Wherever one dispatcher returns, the other answers the same. -/
def Refines (d e : Dir → Word → Byte → State → State) : Prop :=
  ∀ dir a v s, (d dir a v s).diverged = false → e dir a v s = d dir a v s

section refines
variable {d e : Dir → Word → Byte → State → State}

/-- What ends without the mark was without it before, for a dispatcher that never takes the mark back. -/
theorem not_diverged_of {s t : State} (h : s.diverged = true → t.diverged = true) (ht : t.diverged = false) :
    s.diverged = false := by
  cases hs : s.diverged with
  | false => rfl
  | true => rw [h hs] at ht; cases ht

variable (hm : ∀ dir a v s, s.diverged = true → (d dir a v s).diverged = true) (h : Refines d e)
include hm h

theorem runProg_refines (v : Byte) (p : HandlerProg) (s : State) (hd : (runProg d v p s).diverged = false) :
    runProg e v p s = runProg d v p s := by
  induction p generalizing s with
  | done => rfl
  | stop rest ih => exact ih _ hd
  | memRead a rest ih =>
    have hr := not_diverged_of (runProg_closed diverged_closed hm v rest _) hd
    have ha : afterAccess e .read a (s.peek a) s = afterAccess d .read a (s.peek a) s := by
      unfold afterAccess at hr ⊢
      split
      · rfl
      · next hs => exact h _ _ _ _ (by rwa [if_neg hs] at hr)
    show runProg e v rest (afterAccess e .read a (s.peek a) s) = _
    rw [ha]
    exact ih _ hd
  | memWrite a b rest ih =>
    have hr := not_diverged_of (runProg_closed diverged_closed hm v rest _) hd
    have ha : afterAccess e .write a (evalByteArg v b) (s.poke a (evalByteArg v b)) =
        afterAccess d .write a (evalByteArg v b) (s.poke a (evalByteArg v b)) := by
      unfold afterAccess at hr ⊢
      split
      · rfl
      · next hs => exact h _ _ _ _ (by rwa [if_neg hs] at hr)
    show runProg e v rest (afterAccess e .write a (evalByteArg v b) (s.poke a (evalByteArg v b))) = _
    rw [ha]
    exact ih _ hd
  | suppressed body rest ihb ihr =>
    have hr := not_diverged_of (runProg_closed diverged_closed hm v rest _) hd
    show runProg e v rest ((runProg e v body (s.setSuppress true)).setSuppress s.suppress) = _
    rw [ihb _ hr]
    exact ihr _ hd
  | addReadWatch a n rest ih => exact ih _ hd
  | addWriteWatch a n rest ih => exact ih _ hd
  | refusedCall c rest ih => exact ih _ hd

theorem invoke_refines (dir : Dir) (a : Word) (v : Byte) (s : State) (g : Handler)
    (hd : (invoke d dir a v s g).diverged = false) : invoke e dir a v s g = invoke d dir a v s g := by
  cases g with
  | ext n => exact runProg_refines hm h v _ _ hd
  | kbdRead | kbdcrWrite | dspWrite | dspcrWrite => rfl

theorem foldl_invoke_refines (dir : Dir) (a : Word) (v : Byte) (hs : List Handler) (s : State)
    (hd : (hs.foldl (invoke d dir a v) s).diverged = false) :
    hs.foldl (invoke e dir a v) s = hs.foldl (invoke d dir a v) s := by
  induction hs generalizing s with
  | nil => rfl
  | cons g hs ih =>
    have hg := not_diverged_of (foldl_closed diverged_closed (fun s h => invoke_closed diverged_closed hm dir a v s h) hs _) hd
    rw [List.foldl_cons, List.foldl_cons, invoke_refines hm h dir a v s g hg]
    exact ih _ hd

end refines

/-- A deeper bound answers the same as one that is enough. -/
theorem dispatch_succ_refines (depth : Nat) : Refines (dispatch depth) (dispatch (depth + 1)) := by
  induction depth with
  | zero => exact fun dir a v s h => absurd h (by simp [dispatch])
  | succ depth ih =>
    exact fun dir a v s h => foldl_invoke_refines (dispatch_closed diverged_closed depth) ih dir a v _ s h

theorem dispatch_mono {depth depth' : Nat} (hle : depth ≤ depth') : Refines (dispatch depth) (dispatch depth') := by
  induction hle with
  | refl => exact fun dir a v s h => rfl
  | step _ ih =>
    intro dir a v s h
    have h1 := ih dir a v s h
    rw [dispatch_succ_refines _ dir a v s (by rw [h1]; exact h), h1]

/-- A depth that is enough gives the dispatch's answer. -/
theorem dispatch_refines_runHandlers (depth : Nat) : Refines (dispatch depth) runHandlers := by
  intro dir a v s h
  rcases runHandlers_cases dir a v s with ⟨hs, -⟩ | ⟨depth', -, h', he⟩ | ⟨-, hall, -⟩
  · exact absurd (dispatch_closed diverged_closed depth dir a v s hs) (by simp [h])
  · rw [he]
    rcases Nat.le_total depth depth' with hle | hle
    · exact dispatch_mono hle dir a v s h
    · exact (dispatch_mono hle dir a v s h').symm
  · have := dispatch_mono (Nat.le_max_left depth firstDepth) dir a v s h
    rw [← this, hall _ (Nat.le_max_right depth firstDepth)] at h
    cases h

end Sys2Proof.Machine
end

