-- ==== Sys2Proof/Laws/PerInstr.lean ====
section
/-! SUPPORT. For every instruction: the table has a row for its opcode, and that row's format makes the instruction of its
operand again (30_encoding.md R127, R131). -/

/-- The row of the opcode of `i` exists and makes `i` of the operand of `i`. -/
def Sys2Proof.Laws.TableRow.Statement (i : Sys2Proof.Instr) : Prop :=
  ∃ r, Sys2Proof.rowOf i.opcode = some r ∧ r.form.withOperand i.operand = some i

theorem Sys2Proof.Laws.TableRow.ldaImm (b : Sys2Proof.Byte) : Sys2Proof.Laws.TableRow.Statement (.ldaImm b) :=
  ⟨_, rfl, rfl⟩

theorem Sys2Proof.Laws.TableRow.ldaZp (b : Sys2Proof.Byte) : Sys2Proof.Laws.TableRow.Statement (.ldaZp b) :=
  ⟨_, rfl, rfl⟩

theorem Sys2Proof.Laws.TableRow.ldaZpx (b : Sys2Proof.Byte) : Sys2Proof.Laws.TableRow.Statement (.ldaZpx b) :=
  ⟨_, rfl, rfl⟩

theorem Sys2Proof.Laws.TableRow.ldaAbs (w : Sys2Proof.Word) : Sys2Proof.Laws.TableRow.Statement (.ldaAbs w) :=
  ⟨_, rfl, congrArg (fun w => some (Sys2Proof.Instr.ldaAbs w)) (Sys2Proof.joinBytes_highByte_lowByte w)⟩

theorem Sys2Proof.Laws.TableRow.ldaAbsx (w : Sys2Proof.Word) : Sys2Proof.Laws.TableRow.Statement (.ldaAbsx w) :=
  ⟨_, rfl, congrArg (fun w => some (Sys2Proof.Instr.ldaAbsx w)) (Sys2Proof.joinBytes_highByte_lowByte w)⟩

theorem Sys2Proof.Laws.TableRow.ldaAbsy (w : Sys2Proof.Word) : Sys2Proof.Laws.TableRow.Statement (.ldaAbsy w) :=
  ⟨_, rfl, congrArg (fun w => some (Sys2Proof.Instr.ldaAbsy w)) (Sys2Proof.joinBytes_highByte_lowByte w)⟩

theorem Sys2Proof.Laws.TableRow.ldaIndx (b : Sys2Proof.Byte) : Sys2Proof.Laws.TableRow.Statement (.ldaIndx b) :=
  ⟨_, rfl, rfl⟩

theorem Sys2Proof.Laws.TableRow.ldaIndy (b : Sys2Proof.Byte) : Sys2Proof.Laws.TableRow.Statement (.ldaIndy b) :=
  ⟨_, rfl, rfl⟩

theorem Sys2Proof.Laws.TableRow.ldxImm (b : Sys2Proof.Byte) : Sys2Proof.Laws.TableRow.Statement (.ldxImm b) :=
  ⟨_, rfl, rfl⟩

theorem Sys2Proof.Laws.TableRow.ldxZp (b : Sys2Proof.Byte) : Sys2Proof.Laws.TableRow.Statement (.ldxZp b) :=
  ⟨_, rfl, rfl⟩

theorem Sys2Proof.Laws.TableRow.ldxZpy (b : Sys2Proof.Byte) : Sys2Proof.Laws.TableRow.Statement (.ldxZpy b) :=
  ⟨_, rfl, rfl⟩

theorem Sys2Proof.Laws.TableRow.ldxAbs (w : Sys2Proof.Word) : Sys2Proof.Laws.TableRow.Statement (.ldxAbs w) :=
  ⟨_, rfl, congrArg (fun w => some (Sys2Proof.Instr.ldxAbs w)) (Sys2Proof.joinBytes_highByte_lowByte w)⟩

theorem Sys2Proof.Laws.TableRow.ldxAbsy (w : Sys2Proof.Word) : Sys2Proof.Laws.TableRow.Statement (.ldxAbsy w) :=
  ⟨_, rfl, congrArg (fun w => some (Sys2Proof.Instr.ldxAbsy w)) (Sys2Proof.joinBytes_highByte_lowByte w)⟩

theorem Sys2Proof.Laws.TableRow.ldyImm (b : Sys2Proof.Byte) : Sys2Proof.Laws.TableRow.Statement (.ldyImm b) :=
  ⟨_, rfl, rfl⟩

theorem Sys2Proof.Laws.TableRow.ldyZp (b : Sys2Proof.Byte) : Sys2Proof.Laws.TableRow.Statement (.ldyZp b) :=
  ⟨_, rfl, rfl⟩

theorem Sys2Proof.Laws.TableRow.ldyZpx (b : Sys2Proof.Byte) : Sys2Proof.Laws.TableRow.Statement (.ldyZpx b) :=
  ⟨_, rfl, rfl⟩

theorem Sys2Proof.Laws.TableRow.ldyAbs (w : Sys2Proof.Word) : Sys2Proof.Laws.TableRow.Statement (.ldyAbs w) :=
  ⟨_, rfl, congrArg (fun w => some (Sys2Proof.Instr.ldyAbs w)) (Sys2Proof.joinBytes_highByte_lowByte w)⟩

theorem Sys2Proof.Laws.TableRow.ldyAbsx (w : Sys2Proof.Word) : Sys2Proof.Laws.TableRow.Statement (.ldyAbsx w) :=
  ⟨_, rfl, congrArg (fun w => some (Sys2Proof.Instr.ldyAbsx w)) (Sys2Proof.joinBytes_highByte_lowByte w)⟩

theorem Sys2Proof.Laws.TableRow.staZp (b : Sys2Proof.Byte) : Sys2Proof.Laws.TableRow.Statement (.staZp b) :=
  ⟨_, rfl, rfl⟩

theorem Sys2Proof.Laws.TableRow.staZpx (b : Sys2Proof.Byte) : Sys2Proof.Laws.TableRow.Statement (.staZpx b) :=
  ⟨_, rfl, rfl⟩

theorem Sys2Proof.Laws.TableRow.staAbs (w : Sys2Proof.Word) : Sys2Proof.Laws.TableRow.Statement (.staAbs w) :=
  ⟨_, rfl, congrArg (fun w => some (Sys2Proof.Instr.staAbs w)) (Sys2Proof.joinBytes_highByte_lowByte w)⟩

theorem Sys2Proof.Laws.TableRow.staAbsx (w : Sys2Proof.Word) : Sys2Proof.Laws.TableRow.Statement (.staAbsx w) :=
  ⟨_, rfl, congrArg (fun w => some (Sys2Proof.Instr.staAbsx w)) (Sys2Proof.joinBytes_highByte_lowByte w)⟩

theorem Sys2Proof.Laws.TableRow.staAbsy (w : Sys2Proof.Word) : Sys2Proof.Laws.TableRow.Statement (.staAbsy w) :=
  ⟨_, rfl, congrArg (fun w => some (Sys2Proof.Instr.staAbsy w)) (Sys2Proof.joinBytes_highByte_lowByte w)⟩

theorem Sys2Proof.Laws.TableRow.staIndx (b : Sys2Proof.Byte) : Sys2Proof.Laws.TableRow.Statement (.staIndx b) :=
  ⟨_, rfl, rfl⟩

theorem Sys2Proof.Laws.TableRow.staIndy (b : Sys2Proof.Byte) : Sys2Proof.Laws.TableRow.Statement (.staIndy b) :=
  ⟨_, rfl, rfl⟩

theorem Sys2Proof.Laws.TableRow.stxZp (b : Sys2Proof.Byte) : Sys2Proof.Laws.TableRow.Statement (.stxZp b) :=
  ⟨_, rfl, rfl⟩

theorem Sys2Proof.Laws.TableRow.stxZpy (b : Sys2Proof.Byte) : Sys2Proof.Laws.TableRow.Statement (.stxZpy b) :=
  ⟨_, rfl, rfl⟩

theorem Sys2Proof.Laws.TableRow.stxAbs (w : Sys2Proof.Word) : Sys2Proof.Laws.TableRow.Statement (.stxAbs w) :=
  ⟨_, rfl, congrArg (fun w => some (Sys2Proof.Instr.stxAbs w)) (Sys2Proof.joinBytes_highByte_lowByte w)⟩

theorem Sys2Proof.Laws.TableRow.styZp (b : Sys2Proof.Byte) : Sys2Proof.Laws.TableRow.Statement (.styZp b) :=
  ⟨_, rfl, rfl⟩

theorem Sys2Proof.Laws.TableRow.styZpx (b : Sys2Proof.Byte) : Sys2Proof.Laws.TableRow.Statement (.styZpx b) :=
  ⟨_, rfl, rfl⟩

theorem Sys2Proof.Laws.TableRow.styAbs (w : Sys2Proof.Word) : Sys2Proof.Laws.TableRow.Statement (.styAbs w) :=
  ⟨_, rfl, congrArg (fun w => some (Sys2Proof.Instr.styAbs w)) (Sys2Proof.joinBytes_highByte_lowByte w)⟩

theorem Sys2Proof.Laws.TableRow.adcImm (b : Sys2Proof.Byte) : Sys2Proof.Laws.TableRow.Statement (.adcImm b) :=
  ⟨_, rfl, rfl⟩

theorem Sys2Proof.Laws.TableRow.adcZp (b : Sys2Proof.Byte) : Sys2Proof.Laws.TableRow.Statement (.adcZp b) :=
  ⟨_, rfl, rfl⟩

theorem Sys2Proof.Laws.TableRow.adcZpx (b : Sys2Proof.Byte) : Sys2Proof.Laws.TableRow.Statement (.adcZpx b) :=
  ⟨_, rfl, rfl⟩

theorem Sys2Proof.Laws.TableRow.adcAbs (w : Sys2Proof.Word) : Sys2Proof.Laws.TableRow.Statement (.adcAbs w) :=
  ⟨_, rfl, congrArg (fun w => some (Sys2Proof.Instr.adcAbs w)) (Sys2Proof.joinBytes_highByte_lowByte w)⟩

theorem Sys2Proof.Laws.TableRow.adcAbsx (w : Sys2Proof.Word) : Sys2Proof.Laws.TableRow.Statement (.adcAbsx w) :=
  ⟨_, rfl, congrArg (fun w => some (Sys2Proof.Instr.adcAbsx w)) (Sys2Proof.joinBytes_highByte_lowByte w)⟩

theorem Sys2Proof.Laws.TableRow.adcAbsy (w : Sys2Proof.Word) : Sys2Proof.Laws.TableRow.Statement (.adcAbsy w) :=
  ⟨_, rfl, congrArg (fun w => some (Sys2Proof.Instr.adcAbsy w)) (Sys2Proof.joinBytes_highByte_lowByte w)⟩

theorem Sys2Proof.Laws.TableRow.adcIndx (b : Sys2Proof.Byte) : Sys2Proof.Laws.TableRow.Statement (.adcIndx b) :=
  ⟨_, rfl, rfl⟩

theorem Sys2Proof.Laws.TableRow.adcIndy (b : Sys2Proof.Byte) : Sys2Proof.Laws.TableRow.Statement (.adcIndy b) :=
  ⟨_, rfl, rfl⟩

theorem Sys2Proof.Laws.TableRow.sbcImm (b : Sys2Proof.Byte) : Sys2Proof.Laws.TableRow.Statement (.sbcImm b) :=
  ⟨_, rfl, rfl⟩

theorem Sys2Proof.Laws.TableRow.sbcZp (b : Sys2Proof.Byte) : Sys2Proof.Laws.TableRow.Statement (.sbcZp b) :=
  ⟨_, rfl, rfl⟩

theorem Sys2Proof.Laws.TableRow.sbcZpx (b : Sys2Proof.Byte) : Sys2Proof.Laws.TableRow.Statement (.sbcZpx b) :=
  ⟨_, rfl, rfl⟩

theorem Sys2Proof.Laws.TableRow.sbcAbs (w : Sys2Proof.Word) : Sys2Proof.Laws.TableRow.Statement (.sbcAbs w) :=
  ⟨_, rfl, congrArg (fun w => some (Sys2Proof.Instr.sbcAbs w)) (Sys2Proof.joinBytes_highByte_lowByte w)⟩

theorem Sys2Proof.Laws.TableRow.sbcAbsx (w : Sys2Proof.Word) : Sys2Proof.Laws.TableRow.Statement (.sbcAbsx w) :=
  ⟨_, rfl, congrArg (fun w => some (Sys2Proof.Instr.sbcAbsx w)) (Sys2Proof.joinBytes_highByte_lowByte w)⟩

theorem Sys2Proof.Laws.TableRow.sbcAbsy (w : Sys2Proof.Word) : Sys2Proof.Laws.TableRow.Statement (.sbcAbsy w) :=
  ⟨_, rfl, congrArg (fun w => some (Sys2Proof.Instr.sbcAbsy w)) (Sys2Proof.joinBytes_highByte_lowByte w)⟩

theorem Sys2Proof.Laws.TableRow.sbcIndx (b : Sys2Proof.Byte) : Sys2Proof.Laws.TableRow.Statement (.sbcIndx b) :=
  ⟨_, rfl, rfl⟩

theorem Sys2Proof.Laws.TableRow.sbcIndy (b : Sys2Proof.Byte) : Sys2Proof.Laws.TableRow.Statement (.sbcIndy b) :=
  ⟨_, rfl, rfl⟩

theorem Sys2Proof.Laws.TableRow.incZp (b : Sys2Proof.Byte) : Sys2Proof.Laws.TableRow.Statement (.incZp b) :=
  ⟨_, rfl, rfl⟩

theorem Sys2Proof.Laws.TableRow.incZpx (b : Sys2Proof.Byte) : Sys2Proof.Laws.TableRow.Statement (.incZpx b) :=
  ⟨_, rfl, rfl⟩

theorem Sys2Proof.Laws.TableRow.incAbs (w : Sys2Proof.Word) : Sys2Proof.Laws.TableRow.Statement (.incAbs w) :=
  ⟨_, rfl, congrArg (fun w => some (Sys2Proof.Instr.incAbs w)) (Sys2Proof.joinBytes_highByte_lowByte w)⟩

theorem Sys2Proof.Laws.TableRow.incAbsx (w : Sys2Proof.Word) : Sys2Proof.Laws.TableRow.Statement (.incAbsx w) :=
  ⟨_, rfl, congrArg (fun w => some (Sys2Proof.Instr.incAbsx w)) (Sys2Proof.joinBytes_highByte_lowByte w)⟩

theorem Sys2Proof.Laws.TableRow.decZp (b : Sys2Proof.Byte) : Sys2Proof.Laws.TableRow.Statement (.decZp b) :=
  ⟨_, rfl, rfl⟩

theorem Sys2Proof.Laws.TableRow.decZpx (b : Sys2Proof.Byte) : Sys2Proof.Laws.TableRow.Statement (.decZpx b) :=
  ⟨_, rfl, rfl⟩

theorem Sys2Proof.Laws.TableRow.decAbs (w : Sys2Proof.Word) : Sys2Proof.Laws.TableRow.Statement (.decAbs w) :=
  ⟨_, rfl, congrArg (fun w => some (Sys2Proof.Instr.decAbs w)) (Sys2Proof.joinBytes_highByte_lowByte w)⟩

theorem Sys2Proof.Laws.TableRow.decAbsx (w : Sys2Proof.Word) : Sys2Proof.Laws.TableRow.Statement (.decAbsx w) :=
  ⟨_, rfl, congrArg (fun w => some (Sys2Proof.Instr.decAbsx w)) (Sys2Proof.joinBytes_highByte_lowByte w)⟩

theorem Sys2Proof.Laws.TableRow.inx : Sys2Proof.Laws.TableRow.Statement .inx := ⟨_, rfl, rfl⟩

theorem Sys2Proof.Laws.TableRow.iny : Sys2Proof.Laws.TableRow.Statement .iny := ⟨_, rfl, rfl⟩

theorem Sys2Proof.Laws.TableRow.dex : Sys2Proof.Laws.TableRow.Statement .dex := ⟨_, rfl, rfl⟩

theorem Sys2Proof.Laws.TableRow.dey : Sys2Proof.Laws.TableRow.Statement .dey := ⟨_, rfl, rfl⟩

theorem Sys2Proof.Laws.TableRow.aslAcc : Sys2Proof.Laws.TableRow.Statement .aslAcc := ⟨_, rfl, rfl⟩

theorem Sys2Proof.Laws.TableRow.aslZp (b : Sys2Proof.Byte) : Sys2Proof.Laws.TableRow.Statement (.aslZp b) :=
  ⟨_, rfl, rfl⟩

theorem Sys2Proof.Laws.TableRow.aslZpx (b : Sys2Proof.Byte) : Sys2Proof.Laws.TableRow.Statement (.aslZpx b) :=
  ⟨_, rfl, rfl⟩

theorem Sys2Proof.Laws.TableRow.aslAbs (w : Sys2Proof.Word) : Sys2Proof.Laws.TableRow.Statement (.aslAbs w) :=
  ⟨_, rfl, congrArg (fun w => some (Sys2Proof.Instr.aslAbs w)) (Sys2Proof.joinBytes_highByte_lowByte w)⟩

theorem Sys2Proof.Laws.TableRow.aslAbsx (w : Sys2Proof.Word) : Sys2Proof.Laws.TableRow.Statement (.aslAbsx w) :=
  ⟨_, rfl, congrArg (fun w => some (Sys2Proof.Instr.aslAbsx w)) (Sys2Proof.joinBytes_highByte_lowByte w)⟩

theorem Sys2Proof.Laws.TableRow.lsrAcc : Sys2Proof.Laws.TableRow.Statement .lsrAcc := ⟨_, rfl, rfl⟩

theorem Sys2Proof.Laws.TableRow.lsrZp (b : Sys2Proof.Byte) : Sys2Proof.Laws.TableRow.Statement (.lsrZp b) :=
  ⟨_, rfl, rfl⟩

theorem Sys2Proof.Laws.TableRow.lsrZpx (b : Sys2Proof.Byte) : Sys2Proof.Laws.TableRow.Statement (.lsrZpx b) :=
  ⟨_, rfl, rfl⟩

theorem Sys2Proof.Laws.TableRow.lsrAbs (w : Sys2Proof.Word) : Sys2Proof.Laws.TableRow.Statement (.lsrAbs w) :=
  ⟨_, rfl, congrArg (fun w => some (Sys2Proof.Instr.lsrAbs w)) (Sys2Proof.joinBytes_highByte_lowByte w)⟩

theorem Sys2Proof.Laws.TableRow.lsrAbsx (w : Sys2Proof.Word) : Sys2Proof.Laws.TableRow.Statement (.lsrAbsx w) :=
  ⟨_, rfl, congrArg (fun w => some (Sys2Proof.Instr.lsrAbsx w)) (Sys2Proof.joinBytes_highByte_lowByte w)⟩

theorem Sys2Proof.Laws.TableRow.rolAcc : Sys2Proof.Laws.TableRow.Statement .rolAcc := ⟨_, rfl, rfl⟩

theorem Sys2Proof.Laws.TableRow.rolZp (b : Sys2Proof.Byte) : Sys2Proof.Laws.TableRow.Statement (.rolZp b) :=
  ⟨_, rfl, rfl⟩

theorem Sys2Proof.Laws.TableRow.rolZpx (b : Sys2Proof.Byte) : Sys2Proof.Laws.TableRow.Statement (.rolZpx b) :=
  ⟨_, rfl, rfl⟩

theorem Sys2Proof.Laws.TableRow.rolAbs (w : Sys2Proof.Word) : Sys2Proof.Laws.TableRow.Statement (.rolAbs w) :=
  ⟨_, rfl, congrArg (fun w => some (Sys2Proof.Instr.rolAbs w)) (Sys2Proof.joinBytes_highByte_lowByte w)⟩

theorem Sys2Proof.Laws.TableRow.rolAbsx (w : Sys2Proof.Word) : Sys2Proof.Laws.TableRow.Statement (.rolAbsx w) :=
  ⟨_, rfl, congrArg (fun w => some (Sys2Proof.Instr.rolAbsx w)) (Sys2Proof.joinBytes_highByte_lowByte w)⟩

theorem Sys2Proof.Laws.TableRow.rorAcc : Sys2Proof.Laws.TableRow.Statement .rorAcc := ⟨_, rfl, rfl⟩

theorem Sys2Proof.Laws.TableRow.rorZp (b : Sys2Proof.Byte) : Sys2Proof.Laws.TableRow.Statement (.rorZp b) :=
  ⟨_, rfl, rfl⟩

theorem Sys2Proof.Laws.TableRow.rorZpx (b : Sys2Proof.Byte) : Sys2Proof.Laws.TableRow.Statement (.rorZpx b) :=
  ⟨_, rfl, rfl⟩

theorem Sys2Proof.Laws.TableRow.rorAbs (w : Sys2Proof.Word) : Sys2Proof.Laws.TableRow.Statement (.rorAbs w) :=
  ⟨_, rfl, congrArg (fun w => some (Sys2Proof.Instr.rorAbs w)) (Sys2Proof.joinBytes_highByte_lowByte w)⟩

theorem Sys2Proof.Laws.TableRow.rorAbsx (w : Sys2Proof.Word) : Sys2Proof.Laws.TableRow.Statement (.rorAbsx w) :=
  ⟨_, rfl, congrArg (fun w => some (Sys2Proof.Instr.rorAbsx w)) (Sys2Proof.joinBytes_highByte_lowByte w)⟩

theorem Sys2Proof.Laws.TableRow.andImm (b : Sys2Proof.Byte) : Sys2Proof.Laws.TableRow.Statement (.andImm b) :=
  ⟨_, rfl, rfl⟩

theorem Sys2Proof.Laws.TableRow.andZp (b : Sys2Proof.Byte) : Sys2Proof.Laws.TableRow.Statement (.andZp b) :=
  ⟨_, rfl, rfl⟩

theorem Sys2Proof.Laws.TableRow.andZpx (b : Sys2Proof.Byte) : Sys2Proof.Laws.TableRow.Statement (.andZpx b) :=
  ⟨_, rfl, rfl⟩

theorem Sys2Proof.Laws.TableRow.andAbs (w : Sys2Proof.Word) : Sys2Proof.Laws.TableRow.Statement (.andAbs w) :=
  ⟨_, rfl, congrArg (fun w => some (Sys2Proof.Instr.andAbs w)) (Sys2Proof.joinBytes_highByte_lowByte w)⟩

theorem Sys2Proof.Laws.TableRow.andAbsx (w : Sys2Proof.Word) : Sys2Proof.Laws.TableRow.Statement (.andAbsx w) :=
  ⟨_, rfl, congrArg (fun w => some (Sys2Proof.Instr.andAbsx w)) (Sys2Proof.joinBytes_highByte_lowByte w)⟩

theorem Sys2Proof.Laws.TableRow.andAbsy (w : Sys2Proof.Word) : Sys2Proof.Laws.TableRow.Statement (.andAbsy w) :=
  ⟨_, rfl, congrArg (fun w => some (Sys2Proof.Instr.andAbsy w)) (Sys2Proof.joinBytes_highByte_lowByte w)⟩

theorem Sys2Proof.Laws.TableRow.andIndx (b : Sys2Proof.Byte) : Sys2Proof.Laws.TableRow.Statement (.andIndx b) :=
  ⟨_, rfl, rfl⟩

theorem Sys2Proof.Laws.TableRow.andIndy (b : Sys2Proof.Byte) : Sys2Proof.Laws.TableRow.Statement (.andIndy b) :=
  ⟨_, rfl, rfl⟩

theorem Sys2Proof.Laws.TableRow.oraImm (b : Sys2Proof.Byte) : Sys2Proof.Laws.TableRow.Statement (.oraImm b) :=
  ⟨_, rfl, rfl⟩

theorem Sys2Proof.Laws.TableRow.oraZp (b : Sys2Proof.Byte) : Sys2Proof.Laws.TableRow.Statement (.oraZp b) :=
  ⟨_, rfl, rfl⟩

theorem Sys2Proof.Laws.TableRow.oraZpx (b : Sys2Proof.Byte) : Sys2Proof.Laws.TableRow.Statement (.oraZpx b) :=
  ⟨_, rfl, rfl⟩

theorem Sys2Proof.Laws.TableRow.oraAbs (w : Sys2Proof.Word) : Sys2Proof.Laws.TableRow.Statement (.oraAbs w) :=
  ⟨_, rfl, congrArg (fun w => some (Sys2Proof.Instr.oraAbs w)) (Sys2Proof.joinBytes_highByte_lowByte w)⟩

theorem Sys2Proof.Laws.TableRow.oraAbsx (w : Sys2Proof.Word) : Sys2Proof.Laws.TableRow.Statement (.oraAbsx w) :=
  ⟨_, rfl, congrArg (fun w => some (Sys2Proof.Instr.oraAbsx w)) (Sys2Proof.joinBytes_highByte_lowByte w)⟩

theorem Sys2Proof.Laws.TableRow.oraAbsy (w : Sys2Proof.Word) : Sys2Proof.Laws.TableRow.Statement (.oraAbsy w) :=
  ⟨_, rfl, congrArg (fun w => some (Sys2Proof.Instr.oraAbsy w)) (Sys2Proof.joinBytes_highByte_lowByte w)⟩

theorem Sys2Proof.Laws.TableRow.oraIndx (b : Sys2Proof.Byte) : Sys2Proof.Laws.TableRow.Statement (.oraIndx b) :=
  ⟨_, rfl, rfl⟩

theorem Sys2Proof.Laws.TableRow.oraIndy (b : Sys2Proof.Byte) : Sys2Proof.Laws.TableRow.Statement (.oraIndy b) :=
  ⟨_, rfl, rfl⟩

theorem Sys2Proof.Laws.TableRow.eorImm (b : Sys2Proof.Byte) : Sys2Proof.Laws.TableRow.Statement (.eorImm b) :=
  ⟨_, rfl, rfl⟩

theorem Sys2Proof.Laws.TableRow.eorZp (b : Sys2Proof.Byte) : Sys2Proof.Laws.TableRow.Statement (.eorZp b) :=
  ⟨_, rfl, rfl⟩

theorem Sys2Proof.Laws.TableRow.eorZpx (b : Sys2Proof.Byte) : Sys2Proof.Laws.TableRow.Statement (.eorZpx b) :=
  ⟨_, rfl, rfl⟩

theorem Sys2Proof.Laws.TableRow.eorAbs (w : Sys2Proof.Word) : Sys2Proof.Laws.TableRow.Statement (.eorAbs w) :=
  ⟨_, rfl, congrArg (fun w => some (Sys2Proof.Instr.eorAbs w)) (Sys2Proof.joinBytes_highByte_lowByte w)⟩

theorem Sys2Proof.Laws.TableRow.eorAbsx (w : Sys2Proof.Word) : Sys2Proof.Laws.TableRow.Statement (.eorAbsx w) :=
  ⟨_, rfl, congrArg (fun w => some (Sys2Proof.Instr.eorAbsx w)) (Sys2Proof.joinBytes_highByte_lowByte w)⟩

theorem Sys2Proof.Laws.TableRow.eorAbsy (w : Sys2Proof.Word) : Sys2Proof.Laws.TableRow.Statement (.eorAbsy w) :=
  ⟨_, rfl, congrArg (fun w => some (Sys2Proof.Instr.eorAbsy w)) (Sys2Proof.joinBytes_highByte_lowByte w)⟩

theorem Sys2Proof.Laws.TableRow.eorIndx (b : Sys2Proof.Byte) : Sys2Proof.Laws.TableRow.Statement (.eorIndx b) :=
  ⟨_, rfl, rfl⟩

theorem Sys2Proof.Laws.TableRow.eorIndy (b : Sys2Proof.Byte) : Sys2Proof.Laws.TableRow.Statement (.eorIndy b) :=
  ⟨_, rfl, rfl⟩

theorem Sys2Proof.Laws.TableRow.cmpImm (b : Sys2Proof.Byte) : Sys2Proof.Laws.TableRow.Statement (.cmpImm b) :=
  ⟨_, rfl, rfl⟩

theorem Sys2Proof.Laws.TableRow.cmpZp (b : Sys2Proof.Byte) : Sys2Proof.Laws.TableRow.Statement (.cmpZp b) :=
  ⟨_, rfl, rfl⟩

theorem Sys2Proof.Laws.TableRow.cmpZpx (b : Sys2Proof.Byte) : Sys2Proof.Laws.TableRow.Statement (.cmpZpx b) :=
  ⟨_, rfl, rfl⟩

theorem Sys2Proof.Laws.TableRow.cmpAbs (w : Sys2Proof.Word) : Sys2Proof.Laws.TableRow.Statement (.cmpAbs w) :=
  ⟨_, rfl, congrArg (fun w => some (Sys2Proof.Instr.cmpAbs w)) (Sys2Proof.joinBytes_highByte_lowByte w)⟩

theorem Sys2Proof.Laws.TableRow.cmpAbsx (w : Sys2Proof.Word) : Sys2Proof.Laws.TableRow.Statement (.cmpAbsx w) :=
  ⟨_, rfl, congrArg (fun w => some (Sys2Proof.Instr.cmpAbsx w)) (Sys2Proof.joinBytes_highByte_lowByte w)⟩

theorem Sys2Proof.Laws.TableRow.cmpAbsy (w : Sys2Proof.Word) : Sys2Proof.Laws.TableRow.Statement (.cmpAbsy w) :=
  ⟨_, rfl, congrArg (fun w => some (Sys2Proof.Instr.cmpAbsy w)) (Sys2Proof.joinBytes_highByte_lowByte w)⟩

theorem Sys2Proof.Laws.TableRow.cmpIndx (b : Sys2Proof.Byte) : Sys2Proof.Laws.TableRow.Statement (.cmpIndx b) :=
  ⟨_, rfl, rfl⟩

theorem Sys2Proof.Laws.TableRow.cmpIndy (b : Sys2Proof.Byte) : Sys2Proof.Laws.TableRow.Statement (.cmpIndy b) :=
  ⟨_, rfl, rfl⟩

theorem Sys2Proof.Laws.TableRow.cpxImm (b : Sys2Proof.Byte) : Sys2Proof.Laws.TableRow.Statement (.cpxImm b) :=
  ⟨_, rfl, rfl⟩

theorem Sys2Proof.Laws.TableRow.cpxZp (b : Sys2Proof.Byte) : Sys2Proof.Laws.TableRow.Statement (.cpxZp b) :=
  ⟨_, rfl, rfl⟩

theorem Sys2Proof.Laws.TableRow.cpxAbs (w : Sys2Proof.Word) : Sys2Proof.Laws.TableRow.Statement (.cpxAbs w) :=
  ⟨_, rfl, congrArg (fun w => some (Sys2Proof.Instr.cpxAbs w)) (Sys2Proof.joinBytes_highByte_lowByte w)⟩

theorem Sys2Proof.Laws.TableRow.cpyImm (b : Sys2Proof.Byte) : Sys2Proof.Laws.TableRow.Statement (.cpyImm b) :=
  ⟨_, rfl, rfl⟩

theorem Sys2Proof.Laws.TableRow.cpyZp (b : Sys2Proof.Byte) : Sys2Proof.Laws.TableRow.Statement (.cpyZp b) :=
  ⟨_, rfl, rfl⟩

theorem Sys2Proof.Laws.TableRow.cpyAbs (w : Sys2Proof.Word) : Sys2Proof.Laws.TableRow.Statement (.cpyAbs w) :=
  ⟨_, rfl, congrArg (fun w => some (Sys2Proof.Instr.cpyAbs w)) (Sys2Proof.joinBytes_highByte_lowByte w)⟩

theorem Sys2Proof.Laws.TableRow.bitZp (b : Sys2Proof.Byte) : Sys2Proof.Laws.TableRow.Statement (.bitZp b) :=
  ⟨_, rfl, rfl⟩

theorem Sys2Proof.Laws.TableRow.bitAbs (w : Sys2Proof.Word) : Sys2Proof.Laws.TableRow.Statement (.bitAbs w) :=
  ⟨_, rfl, congrArg (fun w => some (Sys2Proof.Instr.bitAbs w)) (Sys2Proof.joinBytes_highByte_lowByte w)⟩

theorem Sys2Proof.Laws.TableRow.bpl (b : Sys2Proof.Byte) : Sys2Proof.Laws.TableRow.Statement (.bpl b) :=
  ⟨_, rfl, rfl⟩

theorem Sys2Proof.Laws.TableRow.bmi (b : Sys2Proof.Byte) : Sys2Proof.Laws.TableRow.Statement (.bmi b) :=
  ⟨_, rfl, rfl⟩

theorem Sys2Proof.Laws.TableRow.bvc (b : Sys2Proof.Byte) : Sys2Proof.Laws.TableRow.Statement (.bvc b) :=
  ⟨_, rfl, rfl⟩

theorem Sys2Proof.Laws.TableRow.bvs (b : Sys2Proof.Byte) : Sys2Proof.Laws.TableRow.Statement (.bvs b) :=
  ⟨_, rfl, rfl⟩

theorem Sys2Proof.Laws.TableRow.bcc (b : Sys2Proof.Byte) : Sys2Proof.Laws.TableRow.Statement (.bcc b) :=
  ⟨_, rfl, rfl⟩

theorem Sys2Proof.Laws.TableRow.bcs (b : Sys2Proof.Byte) : Sys2Proof.Laws.TableRow.Statement (.bcs b) :=
  ⟨_, rfl, rfl⟩

theorem Sys2Proof.Laws.TableRow.bne (b : Sys2Proof.Byte) : Sys2Proof.Laws.TableRow.Statement (.bne b) :=
  ⟨_, rfl, rfl⟩

theorem Sys2Proof.Laws.TableRow.beq (b : Sys2Proof.Byte) : Sys2Proof.Laws.TableRow.Statement (.beq b) :=
  ⟨_, rfl, rfl⟩

theorem Sys2Proof.Laws.TableRow.tax : Sys2Proof.Laws.TableRow.Statement .tax := ⟨_, rfl, rfl⟩

theorem Sys2Proof.Laws.TableRow.txa : Sys2Proof.Laws.TableRow.Statement .txa := ⟨_, rfl, rfl⟩

theorem Sys2Proof.Laws.TableRow.tay : Sys2Proof.Laws.TableRow.Statement .tay := ⟨_, rfl, rfl⟩

theorem Sys2Proof.Laws.TableRow.tya : Sys2Proof.Laws.TableRow.Statement .tya := ⟨_, rfl, rfl⟩

theorem Sys2Proof.Laws.TableRow.tsx : Sys2Proof.Laws.TableRow.Statement .tsx := ⟨_, rfl, rfl⟩

theorem Sys2Proof.Laws.TableRow.txs : Sys2Proof.Laws.TableRow.Statement .txs := ⟨_, rfl, rfl⟩

theorem Sys2Proof.Laws.TableRow.pha : Sys2Proof.Laws.TableRow.Statement .pha := ⟨_, rfl, rfl⟩

theorem Sys2Proof.Laws.TableRow.php : Sys2Proof.Laws.TableRow.Statement .php := ⟨_, rfl, rfl⟩

theorem Sys2Proof.Laws.TableRow.pla : Sys2Proof.Laws.TableRow.Statement .pla := ⟨_, rfl, rfl⟩

theorem Sys2Proof.Laws.TableRow.plp : Sys2Proof.Laws.TableRow.Statement .plp := ⟨_, rfl, rfl⟩

theorem Sys2Proof.Laws.TableRow.jmpAbs (w : Sys2Proof.Word) : Sys2Proof.Laws.TableRow.Statement (.jmpAbs w) :=
  ⟨_, rfl, congrArg (fun w => some (Sys2Proof.Instr.jmpAbs w)) (Sys2Proof.joinBytes_highByte_lowByte w)⟩

theorem Sys2Proof.Laws.TableRow.jmpInd (w : Sys2Proof.Word) : Sys2Proof.Laws.TableRow.Statement (.jmpInd w) :=
  ⟨_, rfl, congrArg (fun w => some (Sys2Proof.Instr.jmpInd w)) (Sys2Proof.joinBytes_highByte_lowByte w)⟩

theorem Sys2Proof.Laws.TableRow.jsr (w : Sys2Proof.Word) : Sys2Proof.Laws.TableRow.Statement (.jsr w) :=
  ⟨_, rfl, congrArg (fun w => some (Sys2Proof.Instr.jsr w)) (Sys2Proof.joinBytes_highByte_lowByte w)⟩

theorem Sys2Proof.Laws.TableRow.rts : Sys2Proof.Laws.TableRow.Statement .rts := ⟨_, rfl, rfl⟩

theorem Sys2Proof.Laws.TableRow.sec : Sys2Proof.Laws.TableRow.Statement .sec := ⟨_, rfl, rfl⟩

theorem Sys2Proof.Laws.TableRow.sed : Sys2Proof.Laws.TableRow.Statement .sed := ⟨_, rfl, rfl⟩

theorem Sys2Proof.Laws.TableRow.sei : Sys2Proof.Laws.TableRow.Statement .sei := ⟨_, rfl, rfl⟩

theorem Sys2Proof.Laws.TableRow.clc : Sys2Proof.Laws.TableRow.Statement .clc := ⟨_, rfl, rfl⟩

theorem Sys2Proof.Laws.TableRow.cld : Sys2Proof.Laws.TableRow.Statement .cld := ⟨_, rfl, rfl⟩

theorem Sys2Proof.Laws.TableRow.cli : Sys2Proof.Laws.TableRow.Statement .cli := ⟨_, rfl, rfl⟩

theorem Sys2Proof.Laws.TableRow.clv : Sys2Proof.Laws.TableRow.Statement .clv := ⟨_, rfl, rfl⟩

theorem Sys2Proof.Laws.TableRow.nop : Sys2Proof.Laws.TableRow.Statement .nop := ⟨_, rfl, rfl⟩

theorem Sys2Proof.Laws.TableRow.brk : Sys2Proof.Laws.TableRow.Statement .brk := ⟨_, rfl, rfl⟩

theorem Sys2Proof.Laws.TableRow.rti : Sys2Proof.Laws.TableRow.Statement .rti := ⟨_, rfl, rfl⟩
end

