-- ==== Sys2Proof/Tests/Slice0.lean ====
section
/-! SUPPORT. Tests. Expected values come from spec/: ill-formed terms the checks refuse; words of 30_encoding.md R127 written
out with their instructions; one step per mnemonic from the tables of 95_test_vectors.md; reset and the PIA; and, for every
statement with hypotheses, a witness that meets them. -/

namespace Sys2Proof.Machine

/-! Well-formedness. -/

theorem test_wf_brk_refused : Instr.wf Config.nibble .brk = false := by decide
theorem test_wf_rti_refused : Instr.wf Config.nibble .rti = false := by decide
theorem test_wf_brk_enabled : Instr.wf { Config.nibble with enableBrkRti := true } .brk = true := by decide
theorem test_wf_size_zero_refused : Config.wf { Config.nibble with memSize := 0 } = false := by decide
theorem test_wf_size_too_large_refused : Config.wf { Config.nibble with memSize := 65537 } = false := by decide
theorem test_wf_size_bounds : Config.wf { Config.nibble with memSize := 1 } = true ∧ Config.nibble.wf = true := by decide

/-! Decoding: every row of the table, by words of its `match` with operand bytes 0x9A or 0xC3A5. -/

/-- Each word decodes to the instruction beside it, and the instruction encodes to the bytes of the word. -/
def decodesTo (l : List (Nat × Nat × Instr)) : Bool :=
  l.all fun p => decodeTableWord p.1 p.2.1 == some p.2.2 && encode p.2.2 == (tableWordBytes p.1 p.2.1).take (p.1 / 8)

theorem test_decode_load_store_1 : decodesTo [
    (16, 0x9AA9, .ldaImm 0x9A), (16, 0x9AA5, .ldaZp 0x9A), (16, 0x9AB5, .ldaZpx 0x9A),
    (24, 0xC3A5AD, .ldaAbs 0xC3A5), (24, 0xC3A5BD, .ldaAbsx 0xC3A5), (24, 0xC3A5B9, .ldaAbsy 0xC3A5),
    (16, 0x9AA1, .ldaIndx 0x9A), (16, 0x9AB1, .ldaIndy 0x9A), (16, 0x9AA2, .ldxImm 0x9A),
    (16, 0x9AA6, .ldxZp 0x9A), (16, 0x9AB6, .ldxZpy 0x9A), (24, 0xC3A5AE, .ldxAbs 0xC3A5),
    (24, 0xC3A5BE, .ldxAbsy 0xC3A5), (16, 0x9AA0, .ldyImm 0x9A), (16, 0x9AA4, .ldyZp 0x9A),
    (16, 0x9AB4, .ldyZpx 0x9A), (24, 0xC3A5AC, .ldyAbs 0xC3A5), (24, 0xC3A5BC, .ldyAbsx 0xC3A5),
    (16, 0x9A85, .staZp 0x9A), (16, 0x9A95, .staZpx 0x9A), (24, 0xC3A58D, .staAbs 0xC3A5),
    (24, 0xC3A59D, .staAbsx 0xC3A5), (24, 0xC3A599, .staAbsy 0xC3A5), (16, 0x9A81, .staIndx 0x9A)] = true := by decide

theorem test_decode_load_store_2 : decodesTo [
    (16, 0x9A91, .staIndy 0x9A), (16, 0x9A86, .stxZp 0x9A), (16, 0x9A96, .stxZpy 0x9A),
    (24, 0xC3A58E, .stxAbs 0xC3A5), (16, 0x9A84, .styZp 0x9A), (16, 0x9A94, .styZpx 0x9A),
    (24, 0xC3A58C, .styAbs 0xC3A5)] = true := by decide

theorem test_decode_arithmetic : decodesTo [
    (16, 0x9A69, .adcImm 0x9A), (16, 0x9A65, .adcZp 0x9A), (16, 0x9A75, .adcZpx 0x9A),
    (24, 0xC3A56D, .adcAbs 0xC3A5), (24, 0xC3A57D, .adcAbsx 0xC3A5), (24, 0xC3A579, .adcAbsy 0xC3A5),
    (16, 0x9A61, .adcIndx 0x9A), (16, 0x9A71, .adcIndy 0x9A), (16, 0x9AE9, .sbcImm 0x9A),
    (16, 0x9AE5, .sbcZp 0x9A), (16, 0x9AF5, .sbcZpx 0x9A), (24, 0xC3A5ED, .sbcAbs 0xC3A5),
    (24, 0xC3A5FD, .sbcAbsx 0xC3A5), (24, 0xC3A5F9, .sbcAbsy 0xC3A5), (16, 0x9AE1, .sbcIndx 0x9A),
    (16, 0x9AF1, .sbcIndy 0x9A)] = true := by decide

theorem test_decode_inc_dec : decodesTo [
    (16, 0x9AE6, .incZp 0x9A), (16, 0x9AF6, .incZpx 0x9A), (24, 0xC3A5EE, .incAbs 0xC3A5),
    (24, 0xC3A5FE, .incAbsx 0xC3A5), (16, 0x9AC6, .decZp 0x9A), (16, 0x9AD6, .decZpx 0x9A),
    (24, 0xC3A5CE, .decAbs 0xC3A5), (24, 0xC3A5DE, .decAbsx 0xC3A5), (8, 0xE8, .inx), (8, 0xC8, .iny),
    (8, 0xCA, .dex), (8, 0x88, .dey)] = true := by decide

theorem test_decode_shift_rotate : decodesTo [
    (8, 0x0A, .aslAcc), (16, 0x9A06, .aslZp 0x9A), (16, 0x9A16, .aslZpx 0x9A), (24, 0xC3A50E, .aslAbs 0xC3A5),
    (24, 0xC3A51E, .aslAbsx 0xC3A5), (8, 0x4A, .lsrAcc), (16, 0x9A46, .lsrZp 0x9A), (16, 0x9A56, .lsrZpx 0x9A),
    (24, 0xC3A54E, .lsrAbs 0xC3A5), (24, 0xC3A55E, .lsrAbsx 0xC3A5), (8, 0x2A, .rolAcc),
    (16, 0x9A26, .rolZp 0x9A), (16, 0x9A36, .rolZpx 0x9A), (24, 0xC3A52E, .rolAbs 0xC3A5),
    (24, 0xC3A53E, .rolAbsx 0xC3A5), (8, 0x6A, .rorAcc), (16, 0x9A66, .rorZp 0x9A), (16, 0x9A76, .rorZpx 0x9A),
    (24, 0xC3A56E, .rorAbs 0xC3A5), (24, 0xC3A57E, .rorAbsx 0xC3A5)] = true := by decide

theorem test_decode_logic_compare_1 : decodesTo [
    (16, 0x9A29, .andImm 0x9A), (16, 0x9A25, .andZp 0x9A), (16, 0x9A35, .andZpx 0x9A),
    (24, 0xC3A52D, .andAbs 0xC3A5), (24, 0xC3A53D, .andAbsx 0xC3A5), (24, 0xC3A539, .andAbsy 0xC3A5),
    (16, 0x9A21, .andIndx 0x9A), (16, 0x9A31, .andIndy 0x9A), (16, 0x9A09, .oraImm 0x9A),
    (16, 0x9A05, .oraZp 0x9A), (16, 0x9A15, .oraZpx 0x9A), (24, 0xC3A50D, .oraAbs 0xC3A5),
    (24, 0xC3A51D, .oraAbsx 0xC3A5), (24, 0xC3A519, .oraAbsy 0xC3A5), (16, 0x9A01, .oraIndx 0x9A),
    (16, 0x9A11, .oraIndy 0x9A), (16, 0x9A49, .eorImm 0x9A), (16, 0x9A45, .eorZp 0x9A),
    (16, 0x9A55, .eorZpx 0x9A), (24, 0xC3A54D, .eorAbs 0xC3A5), (24, 0xC3A55D, .eorAbsx 0xC3A5),
    (24, 0xC3A559, .eorAbsy 0xC3A5), (16, 0x9A41, .eorIndx 0x9A), (16, 0x9A51, .eorIndy 0x9A)] = true := by decide

theorem test_decode_logic_compare_2 : decodesTo [
    (16, 0x9AC9, .cmpImm 0x9A), (16, 0x9AC5, .cmpZp 0x9A), (16, 0x9AD5, .cmpZpx 0x9A),
    (24, 0xC3A5CD, .cmpAbs 0xC3A5), (24, 0xC3A5DD, .cmpAbsx 0xC3A5), (24, 0xC3A5D9, .cmpAbsy 0xC3A5),
    (16, 0x9AC1, .cmpIndx 0x9A), (16, 0x9AD1, .cmpIndy 0x9A), (16, 0x9AE0, .cpxImm 0x9A),
    (16, 0x9AE4, .cpxZp 0x9A), (24, 0xC3A5EC, .cpxAbs 0xC3A5), (16, 0x9AC0, .cpyImm 0x9A),
    (16, 0x9AC4, .cpyZp 0x9A), (24, 0xC3A5CC, .cpyAbs 0xC3A5), (16, 0x9A24, .bitZp 0x9A),
    (24, 0xC3A52C, .bitAbs 0xC3A5)] = true := by decide

theorem test_decode_branch : decodesTo [
    (16, 0x9A10, .bpl 0x9A), (16, 0x9A30, .bmi 0x9A), (16, 0x9A50, .bvc 0x9A), (16, 0x9A70, .bvs 0x9A),
    (16, 0x9A90, .bcc 0x9A), (16, 0x9AB0, .bcs 0x9A), (16, 0x9AD0, .bne 0x9A), (16, 0x9AF0, .beq 0x9A)] = true := by decide

theorem test_decode_transfer_stack : decodesTo [
    (8, 0xAA, .tax), (8, 0x8A, .txa), (8, 0xA8, .tay), (8, 0x98, .tya), (8, 0xBA, .tsx), (8, 0x9A, .txs),
    (8, 0x48, .pha), (8, 0x08, .php), (8, 0x68, .pla), (8, 0x28, .plp)] = true := by decide

theorem test_decode_control_flags : decodesTo [
    (24, 0xC3A54C, .jmpAbs 0xC3A5), (24, 0xC3A56C, .jmpInd 0xC3A5), (24, 0xC3A520, .jsr 0xC3A5),
    (8, 0x60, .rts), (8, 0x38, .sec), (8, 0xF8, .sed), (8, 0x78, .sei), (8, 0x18, .clc), (8, 0xD8, .cld),
    (8, 0x58, .cli), (8, 0xB8, .clv), (8, 0xEA, .nop), (8, 0x00, .brk), (8, 0x40, .rti)] = true := by decide

/-- One instruction a family, bit by bit as the encoding column of R127 writes it. -/
theorem test_decode_bit_by_bit : decodesTo [
    (24, 0b101010111100110110101101, .ldaAbs 0xABCD),
    (16, 0b0101000001110001, .adcIndy 0x50),
    (24, 0b000000110000000011111110, .incAbsx 0x0300),
    (16, 0b0111111101110110, .rorZpx 0x7F),
    (16, 0b0011000011001001, .cmpImm 0x30),
    (16, 0b1111111001110000, .bvs 0xFE),
    (8, 0b10011010, .txs),
    (24, 0b000100101111111101101100, .jmpInd 0x12FF),
    (8, 0b00000000, .brk)] = true := by decide

theorem test_decode_unmapped : decode true [0x02] = .error (.unmapped 0x02) ∧ decode true [0x89, 0x00] = .error (.unmapped 0x89) ∧
    decode false [0x00, 0x00] = .error (.brkRtiDisabled 0x00) ∧ decode false [0xAD, 0x00] = .error .truncated := by
  decide

/-! One step a mnemonic (95_test_vectors.md sections 2.2 to 2.9). -/

/-- The state after one step of a running machine with those bytes at those addresses and that PC. -/
def ran (pc : Word) (cells : List (Word × Byte)) (s : State) : Option State :=
  match step ((cells.foldl (fun s p => s.poke p.1 p.2) s).setPc pc |>.setRunning true) with
  | .next t => some t
  | .fault _ | .refused _ => none

theorem test_step_lda : (ran 0x0200 [(0x0200, 0xA9), (0x0201, 0x7F)]
    { State.reset with flags := { State.reset.flags with n := true, z := true } }).map (fun t => (t.a, t.pc, t.cycles, t.flags)) =
    some (0x7F, 0x0202, 2, ⟨false, false, true, false, false, false⟩) := by decide

theorem test_step_ldx : (ran 0x0200 [(0x0200, 0xA2), (0x0201, 0x00)]
    { State.reset with x := 0x10 }).map (fun t => (t.x, t.pc, t.cycles, t.flags)) =
    some (0x00, 0x0202, 2, ⟨false, true, true, false, false, false⟩) := by decide

theorem test_step_ldy : (ran 0x0200 [(0x0200, 0xA0), (0x0201, 0xFF)]
    State.reset).map (fun t => (t.y, t.pc, t.cycles, t.flags)) =
    some (0xFF, 0x0202, 2, ⟨false, false, true, false, false, true⟩) := by decide

theorem test_step_sta : (ran 0x0200 [(0x0200, 0x95), (0x0201, 0xFF)]
    { State.reset with a := 0x11, x := 0x01 }).map (fun t => (t.pc, t.cycles, t.peek 0x0000)) =
    some (0x0202, 4, 0x11) := by decide

theorem test_step_stx : (ran 0x0200 [(0x0200, 0x86), (0x0201, 0x10)]
    { State.reset with x := 0x80 }).map (fun t => (t.pc, t.cycles, t.peek 0x0010)) =
    some (0x0202, 3, 0x80) := by decide

theorem test_step_sty : (ran 0x0200 [(0x0200, 0x84), (0x0201, 0x10)]
    { State.reset with y := 0x14 }).map (fun t => (t.pc, t.cycles, t.peek 0x0010)) =
    some (0x0202, 3, 0x14) := by decide

theorem test_step_adc : (ran 0x0200 [(0x0200, 0x69), (0x0201, 0x80)]
    { State.reset with a := 0x80 }).map (fun t => (t.a, t.pc, t.cycles, t.flags)) =
    some (0x00, 0x0202, 2, ⟨true, true, true, false, true, false⟩) := by decide

theorem test_step_sbc : (ran 0x0200 [(0x0200, 0xE9), (0x0201, 0xFF)]
    { State.reset with a := 0x7F, flags := { State.reset.flags with c := true } }).map (fun t => (t.a, t.pc, t.cycles, t.flags)) =
    some (0x80, 0x0202, 2, ⟨false, false, true, false, true, true⟩) := by decide

theorem test_step_inc : (ran 0x0200 [(0x0200, 0xEE), (0x0201, 0x10), (0x0202, 0xD0), (0xD010, 0xC1), (0xD011, 0x80)]
    State.reset).map (fun t => (t.pc, t.cycles, t.flags, t.peek 0xD010, t.peek 0xD011)) =
    some (0x0203, 6, ⟨false, false, true, false, false, true⟩, 0xC2, 0x00) := by decide

theorem test_step_dec : (ran 0x0200 [(0x0200, 0xC6), (0x0201, 0x10), (0x0010, 0x01)]
    { State.reset with flags := { State.reset.flags with n := true } }).map (fun t => (t.pc, t.cycles, t.flags, t.peek 0x0010)) =
    some (0x0202, 5, ⟨false, true, true, false, false, false⟩, 0x00) := by decide

theorem test_step_inx : (ran 0x0200 [(0x0200, 0xE8)]
    { State.reset with x := 0xFF }).map (fun t => (t.x, t.pc, t.cycles, t.flags)) =
    some (0x00, 0x0201, 2, ⟨false, true, true, false, false, false⟩) := by decide

theorem test_step_iny : (ran 0x0200 [(0x0200, 0xC8)]
    { State.reset with y := 0xFF, flags := { State.reset.flags with c := true } }).map (fun t => (t.y, t.pc, t.cycles, t.flags)) =
    some (0x00, 0x0201, 2, ⟨true, true, true, false, false, false⟩) := by decide

theorem test_step_dex : (ran 0x0200 [(0x0200, 0xCA)]
    State.reset).map (fun t => (t.x, t.pc, t.cycles, t.flags)) =
    some (0xFF, 0x0201, 2, ⟨false, false, true, false, false, true⟩) := by decide

theorem test_step_dey : (ran 0x0200 [(0x0200, 0x88)]
    State.reset).map (fun t => (t.y, t.pc, t.cycles, t.flags)) =
    some (0xFF, 0x0201, 2, ⟨false, false, true, false, false, true⟩) := by decide

theorem test_step_asl : (ran 0x0200 [(0x0200, 0x0A)]
    { State.reset with a := 0x80 }).map (fun t => (t.a, t.pc, t.cycles, t.flags)) =
    some (0x00, 0x0201, 2, ⟨true, true, true, false, false, false⟩) := by decide

theorem test_step_lsr : (ran 0x0200 [(0x0200, 0x4A)]
    { State.reset with a := 0x01 }).map (fun t => (t.a, t.pc, t.cycles, t.flags)) =
    some (0x00, 0x0201, 2, ⟨true, true, true, false, false, false⟩) := by decide

theorem test_step_rol : (ran 0x0200 [(0x0200, 0x2A)]
    { State.reset with a := 0x80 }).map (fun t => (t.a, t.pc, t.cycles, t.flags)) =
    some (0x00, 0x0201, 2, ⟨true, true, true, false, false, false⟩) := by decide

theorem test_step_ror : (ran 0x0200 [(0x0200, 0x6A)]
    { State.reset with a := 0x01 }).map (fun t => (t.a, t.pc, t.cycles, t.flags)) =
    some (0x00, 0x0201, 2, ⟨true, true, true, false, false, false⟩) := by decide

theorem test_step_and : (ran 0x0200 [(0x0200, 0x29), (0x0201, 0x00)]
    { State.reset with a := 0xFF }).map (fun t => (t.a, t.pc, t.cycles, t.flags)) =
    some (0x00, 0x0202, 2, ⟨false, true, true, false, false, false⟩) := by decide

theorem test_step_ora : (ran 0x0200 [(0x0200, 0x09), (0x0201, 0x80)]
    { State.reset with a := 0x41 }).map (fun t => (t.a, t.pc, t.cycles, t.flags)) =
    some (0xC1, 0x0202, 2, ⟨false, false, true, false, false, true⟩) := by decide

theorem test_step_eor : (ran 0x0200 [(0x0200, 0x49), (0x0201, 0xFF)]
    { State.reset with a := 0x0F }).map (fun t => (t.a, t.pc, t.cycles, t.flags)) =
    some (0xF0, 0x0202, 2, ⟨false, false, true, false, false, true⟩) := by decide

theorem test_step_cmp : (ran 0x0200 [(0x0200, 0xC9), (0x0201, 0x41)]
    { State.reset with a := 0x41 }).map (fun t => (t.pc, t.cycles, t.flags)) =
    some (0x0202, 2, ⟨true, true, true, false, false, false⟩) := by decide

theorem test_step_cpx : (ran 0x0200 [(0x0200, 0xE0), (0x0201, 0x10)]
    { State.reset with x := 0x10 }).map (fun t => (t.pc, t.cycles, t.flags)) =
    some (0x0202, 2, ⟨true, true, true, false, false, false⟩) := by decide

theorem test_step_cpy : (ran 0x0200 [(0x0200, 0xCC), (0x0201, 0x00), (0x0202, 0x03), (0x0300, 0x00)]
    State.reset).map (fun t => (t.pc, t.cycles, t.flags)) =
    some (0x0203, 4, ⟨true, true, true, false, false, false⟩) := by decide

theorem test_step_bit : (ran 0x0200 [(0x0200, 0x24), (0x0201, 0x10), (0x0010, 0xC0)]
    State.reset).map (fun t => (t.pc, t.cycles, t.flags)) =
    some (0x0202, 3, ⟨false, true, true, false, true, true⟩) := by decide

theorem test_step_bpl : (ran 0x0200 [(0x0200, 0x10), (0x0201, 0xFB)]
    State.reset).map (fun t => (t.pc, t.cycles)) =
    some (0x01FD, 2) := by decide

theorem test_step_bmi : (ran 0x0200 [(0x0200, 0x30), (0x0201, 0xFB)]
    { State.reset with flags := { State.reset.flags with n := true } }).map (fun t => (t.pc, t.cycles)) =
    some (0x01FD, 2) := by decide

theorem test_step_bvc : (ran 0x0200 [(0x0200, 0x50), (0x0201, 0x10)]
    State.reset).map (fun t => (t.pc, t.cycles)) =
    some (0x0212, 2) := by decide

theorem test_step_bvs : (ran 0x0200 [(0x0200, 0x70), (0x0201, 0x10)]
    { State.reset with flags := { State.reset.flags with v := true } }).map (fun t => (t.pc, t.cycles)) =
    some (0x0212, 2) := by decide

theorem test_step_bcc : (ran 0x0200 [(0x0200, 0x90), (0x0201, 0x80)]
    State.reset).map (fun t => (t.pc, t.cycles)) =
    some (0x0182, 2) := by decide

theorem test_step_bcs : (ran 0x0200 [(0x0200, 0xB0), (0x0201, 0x7F)]
    { State.reset with flags := { State.reset.flags with c := true } }).map (fun t => (t.pc, t.cycles)) =
    some (0x0281, 2) := by decide

theorem test_step_bne : (ran 0x0200 [(0x0200, 0xD0), (0x0201, 0xFE)]
    State.reset).map (fun t => (t.pc, t.cycles)) =
    some (0x0200, 2) := by decide

theorem test_step_beq : (ran 0x0200 [(0x0200, 0xF0), (0x0201, 0x00)]
    { State.reset with flags := { State.reset.flags with z := true } }).map (fun t => (t.pc, t.cycles)) =
    some (0x0202, 2) := by decide

theorem test_step_tax : (ran 0x0200 [(0x0200, 0xAA)]
    { State.reset with a := 0x80 }).map (fun t => (t.x, t.pc, t.cycles, t.flags)) =
    some (0x80, 0x0201, 2, ⟨false, false, true, false, false, true⟩) := by decide

theorem test_step_txa : (ran 0x0200 [(0x0200, 0x8A)]
    { State.reset with x := 0x05 }).map (fun t => (t.a, t.pc, t.cycles)) =
    some (0x05, 0x0201, 2) := by decide

theorem test_step_tay : (ran 0x0200 [(0x0200, 0xA8)]
    { State.reset with y := 0x01 }).map (fun t => (t.y, t.pc, t.cycles, t.flags)) =
    some (0x00, 0x0201, 2, ⟨false, true, true, false, false, false⟩) := by decide

theorem test_step_tya : (ran 0x0200 [(0x0200, 0x98)]
    { State.reset with y := 0xFE }).map (fun t => (t.a, t.pc, t.cycles, t.flags)) =
    some (0xFE, 0x0201, 2, ⟨false, false, true, false, false, true⟩) := by decide

theorem test_step_tsx : (ran 0x0200 [(0x0200, 0xBA)]
    State.reset).map (fun t => (t.x, t.pc, t.cycles, t.flags)) =
    some (0xFD, 0x0201, 2, ⟨false, false, true, false, false, true⟩) := by decide

theorem test_step_txs : (ran 0x0200 [(0x0200, 0x9A)]
    { State.reset with x := 0xFF, flags := { State.reset.flags with z := true } }).map (fun t => (t.sp, t.pc, t.cycles)) =
    some (0xFF, 0x0201, 2) := by decide

theorem test_step_pha : (ran 0x0200 [(0x0200, 0x48)]
    { State.reset with a := 0x42 }).map (fun t => (t.sp, t.pc, t.cycles, t.peek 0x01FD)) =
    some (0xFC, 0x0201, 3, 0x42) := by decide

theorem test_step_php : (ran 0x0200 [(0x0200, 0x08)]
    { State.reset with flags := { State.reset.flags with n := true, c := true } }).map (fun t => (t.sp, t.pc, t.cycles, t.peek 0x01FD)) =
    some (0xFC, 0x0201, 3, 0xB5) := by decide

theorem test_step_pla : (ran 0x0200 [(0x0200, 0x68), (0x0100, 0x80)]
    { State.reset with sp := 0xFF }).map (fun t => (t.a, t.sp, t.pc, t.cycles, t.flags)) =
    some (0x80, 0x00, 0x0201, 4, ⟨false, false, true, false, false, true⟩) := by decide

theorem test_step_plp : (ran 0x0200 [(0x0200, 0x28), (0x01FD, 0xCF)]
    { State.reset with sp := 0xFC, flags := { State.reset.flags with i := false } }).map (fun t => (t.sp, t.pc, t.cycles, t.flags)) =
    some (0xFD, 0x0201, 4, ⟨true, true, true, true, true, true⟩) := by decide

theorem test_step_jmp : (ran 0x0200 [(0x0200, 0x4C), (0x0201, 0x00), (0x0202, 0xFF)]
    State.reset).map (fun t => (t.pc, t.cycles)) =
    some (0xFF00, 3) := by decide

theorem test_step_jsr : (ran 0x0200 [(0x0200, 0x20), (0x0201, 0x00), (0x0202, 0x03)]
    State.reset).map (fun t => (t.sp, t.pc, t.cycles, t.peek 0x01FC, t.peek 0x01FD)) =
    some (0xFB, 0x0300, 6, 0x02, 0x02) := by decide

theorem test_step_rts : (ran 0x0200 [(0x0200, 0x60), (0x01FC, 0x02), (0x01FD, 0x02)]
    { State.reset with sp := 0xFB }).map (fun t => (t.sp, t.pc, t.cycles)) =
    some (0xFD, 0x0203, 6) := by decide

theorem test_step_sec : (ran 0x0200 [(0x0200, 0x38)]
    State.reset).map (fun t => (t.pc, t.cycles, t.flags)) =
    some (0x0201, 2, ⟨true, false, true, false, false, false⟩) := by decide

theorem test_step_sed : (ran 0x0200 [(0x0200, 0xF8)]
    State.reset).map (fun t => (t.pc, t.cycles, t.flags)) =
    some (0x0201, 2, ⟨false, false, true, true, false, false⟩) := by decide

theorem test_step_sei : (ran 0x0200 [(0x0200, 0x78)]
    { State.reset with flags := { State.reset.flags with i := false } }).map (fun t => (t.pc, t.cycles, t.flags)) =
    some (0x0201, 2, ⟨false, false, true, false, false, false⟩) := by decide

theorem test_step_clc : (ran 0x0200 [(0x0200, 0x18)]
    { State.reset with flags := { State.reset.flags with c := true } }).map (fun t => (t.pc, t.cycles, t.flags)) =
    some (0x0201, 2, ⟨false, false, true, false, false, false⟩) := by decide

theorem test_step_cld : (ran 0x0200 [(0x0200, 0xD8)]
    { State.reset with flags := { State.reset.flags with d := true } }).map (fun t => (t.pc, t.cycles, t.flags)) =
    some (0x0201, 2, ⟨false, false, true, false, false, false⟩) := by decide

theorem test_step_cli : (ran 0x0200 [(0x0200, 0x58)]
    State.reset).map (fun t => (t.pc, t.cycles, t.flags)) =
    some (0x0201, 2, ⟨false, false, false, false, false, false⟩) := by decide

theorem test_step_clv : (ran 0x0200 [(0x0200, 0xB8)]
    { State.reset with flags := { State.reset.flags with v := true } }).map (fun t => (t.pc, t.cycles, t.flags)) =
    some (0x0201, 2, ⟨false, false, true, false, false, false⟩) := by decide

theorem test_step_nop : (ran 0x0200 [(0x0200, 0xEA)]
    State.reset).map (fun t => (t.pc, t.cycles)) =
    some (0x0201, 1) := by decide

theorem test_step_brk : (ran 0x0200 [(0x0200, 0x00), (0x0201, 0xEA), (0xFFFE, 0x00), (0xFFFF, 0x04)]
    { State.reset with flags := { State.reset.flags with n := true, c := true }, cfg := { Config.nibble with enableBrkRti := true } }).map (fun t => (t.sp, t.pc, t.cycles, t.peek 0x01FB, t.peek 0x01FC, t.peek 0x01FD)) =
    some (0xFA, 0x0400, 7, 0xB5, 0x02, 0x02) := by decide

theorem test_step_rti : (ran 0x0200 [(0x0200, 0x40), (0x01FB, 0xC3), (0x01FC, 0x34), (0x01FD, 0x12)]
    { State.reset with sp := 0xFA, cfg := { Config.nibble with enableBrkRti := true } }).map (fun t => (t.sp, t.pc, t.cycles, t.flags)) =
    some (0xFD, 0x1234, 6, ⟨true, true, false, false, true, true⟩) := by decide

/-! Reset (95_test_vectors.md section 2.12; 10_state.md R51) and the PIA. -/

theorem test_reset_is_reset_of_construction :
    (match construct Config.nibble with
      | .ok s => cpuReset s == State.reset
      | .error _ => false) = true := by
  decide

theorem test_reset_vector_low_byte_first :
    (cpuReset ((State.reset.poke 0xFFFC 0x34).poke 0xFFFD 0x12)).pc = 0x1234 := by decide

theorem test_pia_echo :
    let s := (State.reset.memWrite 0xD011 0xA7).memWrite 0xD013 0x00
    let s := processInputChar 0x41 s
    (s.peek 0xD010, s.peek 0xD011, ((s.memRead 0xD010).2.memWrite 0xD012 0xC1).trace,
      ((s.memRead 0xD010).2.memWrite 0xD012 0xC1).peek 0xD012, (s.memRead 0xD010).2.peek 0xD011) =
      (0xC1, 0xA7, [.outputChar 0xC1], 0x41, 0x27) := by
  decide

/-! Handlers, batches and unwritten registers (95_test_vectors.md section 2.12). -/

/-- The machine after reset with host handlers of those effects. -/
def withHandlers (rules : List ExtRule) : State := { State.reset with cfg := { Config.nibble with extHandler := rules } }

/-- Vector H7: h1 and h2 at 0x0300, g at 0x0301; h1 writes v + 1 there. -/
theorem test_nested_dispatch_is_depth_first :
    let s := withHandlers [⟨1, none, none, none, .memWrite 0x0301 (.seen 1) .done⟩]
    let s := ((s.addWriteWatch 0x0300 (.ext 1)).addWriteWatch 0x0301 (.ext 3)).addWriteWatch 0x0300 (.ext 2)
    (s.memWrite 0x0300 7).trace =
      [.watchFired 1 .write 0x0300 7, .watchFired 3 .write 0x0301 8, .watchFired 2 .write 0x0300 7] := by
  decide

/-- Vector H8: h1 registers another handler at the address it runs at. -/
theorem test_dispatch_runs_the_list_of_its_start :
    let s := (withHandlers [⟨1, none, none, none, .addWriteWatch 0x0300 9 .done⟩]).addWriteWatch 0x0300 (.ext 1)
    ((s.memWrite 0x0300 1).trace, ((s.memWrite 0x0300 1).memWrite 0x0300 2).trace) =
      ([.watchFired 1 .write 0x0300 1],
        [.watchFired 1 .write 0x0300 1, .watchFired 1 .write 0x0300 2, .watchFired 9 .write 0x0300 2]) := by
  decide

/-- Vector H18. -/
theorem test_pia_handler_runs_before_host_handler :
    let s := (State.reset.addWriteWatch 0xD012 (.ext 4)).setLatches { State.reset.latches with outputEnabled := true }
    ((s.memWrite 0xD012 0x8D).trace, (s.memWrite 0xD012 0x8D).peek 0xD012) =
      ([.outputChar 0x8D, .watchFired 4 .write 0xD012 0x8D], 0x0D) := by
  decide

/-- Vector H19. -/
theorem test_stop_from_handler_ends_batch :
    let s := (withHandlers [⟨5, none, none, none, .stop .done⟩]).addReadWatch 0x0201 (.ext 5)
    let s := (((s.poke 0x0200 0xEA).poke 0x0201 0xEA).poke 0x0202 0xEA).setPc 0x0200
    ((batch 10 (run s)).1, (batch 10 (run s)).2.pc, (batch 10 (run s)).2.cycles, (batch 10 (run s)).2.trace) =
      (.stopped, 0x0202, 2, [.watchFired 5 .read 0x0201 0xEA]) := by
  decide

/-- Vector H13, for what it fixes. -/
theorem test_before_reset_faults :
    let s := match construct Config.nibble with
      | .ok s => evokeRunAtAddress 0x0200 ((s.poke 0x0200 0xA9).poke 0x0201 0x05)
      | .error _ => State.reset
    ((batch 1 s).1, (batch 1 s).2.running, (batch 1 s).2.trace) =
      (.fault, false, [.fault .undefinedRegisterRead (some 0xA9) (some 0x0200)]) := by
  decide

/-- ADC abs before reset: A is first read after the read of the operand byte, which is made (R123, R223, R406). -/
theorem test_before_reset_operand_read_is_made :
    let s := match construct Config.nibble with
      | .ok s => evokeRunAtAddress 0x0200 (((s.poke 0x0200 0x6D).poke 0x0202 0x03).addReadWatch 0x0300 (.ext 6))
      | .error _ => State.reset
    (batch 1 s).2.trace =
      [.watchFired 6 .read 0x0300 0x00, .fault .undefinedRegisterRead (some 0x6D) (some 0x0200)] := by
  decide

/-! Witnesses: for every statement with hypotheses, a state and operands that meet them, at the bounds of each clause. -/

/-- No handler runs for any access. -/
def silentState : State := { State.reset with suppress := true }

/-- Running, with those bytes at 0x0200, where PC is. -/
def atPc (cells : List (Word × Byte)) : State :=
  ((cells.foldl (fun s p => s.poke p.1 p.2) State.reset).setPc 0x0200).setRunning true

/-- BRK and RTI enabled. -/
def withBreak (s : State) : State := { s with cfg := { s.cfg with enableBrkRti := true } }

/-- A host handler that stops the CPU, on a read of KBD after the PIA's and on a write of 0x0200. -/
def handledState : State :=
  let s := { State.reset with cfg := { Config.nibble with extHandler := [⟨1, none, none, none, .stop .done⟩] } }
  (s.addReadWatch 0xD010 (.ext 1)).addWriteWatch 0x0200 (.ext 1)

/-- Whether an outcome is a next state. -/
def isNext : Host.Outcome State Fault Refusal → Bool
  | .next _ => true
  | .fault _ | .refused _ => false

theorem next_of_isNext {o : Host.Outcome State Fault Refusal} (h : isNext o = true) : ∃ t, o = .next t :=
  match o, h with
  | .next t, _ => ⟨t, rfl⟩

/-- A check of each address of a list in turn. -/
theorem each {l : List Word} {p : Word → Prop} [DecidablePred p] (h : l.all (fun a => decide (p a)) = true) :
    ∀ a ∈ l, p a := by
  simpa using h

theorem witness_calm : State.reset.Calm ∧ handledState.Calm ∧ silentState.Silent ∧ silentState.Calm := by decide

theorem witness_DecodeEncodeRoundTrip :
    Instr.wf Config.nibble (.ldaImm 0xFF) = true ∧ Instr.wf { Config.nibble with enableBrkRti := true } .rti = true := by
  decide

theorem witness_DecodedBytesAreTheEncoding :
    decode false [0xA9, 0x05, 0x8D] = .ok (.ldaImm 0x05, [0x8D]) ∧ decode false [0xEA] = .ok (.nop, []) ∧
      decode false [0x4C, 0xFF, 0xFF] = .ok (.jmpAbs 0xFFFF, []) ∧ decode true [0x00] = .ok (.brk, []) := by
  decide

theorem witness_AssemblerFindsInstructionAndBranch :
    assembleBranch 0x0200 0x0182 = some 0x80 ∧ assembleBranch 0x0200 0x0281 = some 0x7F ∧
      assembleBranch 0x0200 0x0181 = none ∧ assembleBranch 0x0200 0x0282 = none ∧
      assembleBranch 0xFFFE 0xFFFF = some 0xFF := by
  decide

theorem witness_StepRunsDecodedInstruction :
    let s := atPc [(0x0200, 0x8D), (0x0201, 0x00), (0x0202, 0xD0)]
    s.running = true ∧ s.written = .every true ∧
      (∃ f, decodeOpcode s.cfg.enableBrkRti (s.peek s.pc) = some f) ∧ s.quietRead s.pc ∧ s.quietRead (s.pc + 1) ∧
      s.quietRead (s.pc + 2) ∧
      decode s.cfg.enableBrkRti [s.peek s.pc, s.peek (s.pc + 1), s.peek (s.pc + 2)] = .ok (.staAbs 0xD000, []) :=
  ⟨by decide, by decide, ⟨_, rfl⟩, by decide, by decide, by decide, by decide⟩

theorem witness_UnmappedOpcodeRaises :
    ((atPc [(0x0200, 0x02)]).Calm ∧ (atPc [(0x0200, 0x02)]).running = true ∧ (atPc [(0x0200, 0x02)]).written.pc = true ∧
      (atPc [(0x0200, 0x02)]).peek 0x0200 ∈ unmappedBytes) ∧
      (atPc [(0x0200, 0xFF)]).peek 0x0200 ∈ unmappedBytes ∧ (atPc []).cfg.enableBrkRti = false ∧
      (atPc []).peek 0x0200 = 0x00 ∧ (atPc [(0x0200, 0x40)]).peek 0x0200 = 0x40 := by
  decide

theorem witness_UnmappedOpcodeRaises_again :
    ∃ t, step (atPc [(0x0200, 0x02)]) = .next t ∧ t.peek 0x0200 = (atPc [(0x0200, 0x02)]).peek 0x0200 :=
  ⟨_, rfl, by decide⟩

/-- Before the first CPU reset: only the registers of a list hold values. -/
def beforeReset (regs : List Reg) (s : State) : State := s.setWritten (regs.foldl Written.mark (.every false))

theorem witness_UnwrittenRegisterRaises :
    let s := beforeReset [.pc] (atPc [(0x0200, 0xA9)])
    let u := beforeReset [] s
    s.Calm ∧ s.running = true ∧ s.written.pc = true ∧ s.written.cycles = false ∧
      (∃ f, decodeOpcode s.cfg.enableBrkRti (s.peek s.pc) = some f) ∧ u.diverged = false ∧ u.running = true ∧
      u.written.pc = false :=
  ⟨by decide, by decide, by decide, by decide, ⟨_, rfl⟩, by decide, by decide, by decide⟩

/-- A memory form of each phase: index unwritten; index written and the late index not; both written and a register of the
rule not, for a store and for a read; and a form that reads no register. -/
theorem witness_UnwrittenRegisterRaises_memory :
    let s := beforeReset [.pc] State.reset
    let x := beforeReset [.pc, .x] State.reset
    s.Calm ∧ s.written.cycles = false ∧ x.Calm ∧ x.written.cycles = false ∧
      (Instr.ldaAbsx 0xFFFF).operand = .mem (.absx 0xFFFF) ∧ s.written.covers (indexReads (.absx 0xFFFF)) = false ∧
      (Instr.ldaIndy 0xFF).operand = .mem (.indy 0xFF) ∧ s.written.covers (indexReads (.indy 0xFF)) = true ∧
      s.written.covers (lateIndexReads (.indy 0xFF)) = false ∧
      (Instr.staIndx 0xFF).operand = .mem (.indx 0xFF) ∧ x.written.covers (indexReads (.indx 0xFF)) = true ∧
      x.written.covers (lateIndexReads (.indx 0xFF)) = true ∧ x.written.covers (ruleReads .sta) = false ∧
      (Instr.rolZpx 0xFF).operand = .mem (.zpx 0xFF) ∧ x.written.covers (indexReads (.zpx 0xFF)) = true ∧
      x.written.covers (lateIndexReads (.zpx 0xFF)) = true ∧ x.written.covers (ruleReads .rol) = false ∧
      (Instr.incAbs 0xFFFF).operand = .mem (.abs 0xFFFF) := by
  decide

/-- The other clauses: a rule that reads its registers first, JSR, an accumulator form, BRK with SP written and the flags not,
and an instruction whose rule reads nothing unwritten. -/
theorem witness_UnwrittenRegisterRaises_rest :
    let s := beforeReset [.pc] State.reset
    let p := beforeReset [.pc, .sp] (withBreak State.reset)
    s.written.covers (ruleReads .adc) = false ∧ (Instr.adcImm 0xFF).operand = .imm 0xFF ∧
      s.written.covers (ruleReads .jsr) = false ∧ (Instr.jsr 0xFFFF).mnemonic = .jsr ∧
      (Instr.aslAcc).operand = .acc ∧ s.written.a = false ∧ p.Calm ∧ p.written.cycles = false ∧ p.written.sp = true ∧
      p.written.covers flagRegs = false ∧ firstUnwritten (.ldaImm 0x05) s = none :=
  ⟨by decide, rfl, by decide, rfl, rfl, rfl, by decide, rfl, rfl, by decide, rfl⟩

theorem witness_LoadsWriteRegisterAndNZ :
    State.reset.Calm ∧ (Instr.ldaIndy 0xFF).mnemonic = .lda ∧ (Instr.ldxImm 0x00).mnemonic = .ldx ∧
      (Instr.ldyAbsx 0xFFFF).mnemonic = .ldy := by
  decide

theorem witness_StoresWriteRegisterToMemory :
    handledState.Calm ∧ (Instr.staAbs 0x0200).mnemonic = .sta ∧ (Instr.stxZpy 0xFF).mnemonic = .stx ∧
      (Instr.styZp 0x00).mnemonic = .sty := by
  decide

theorem witness_AdcAddsWithCarry :
    State.reset.Calm ∧ (Instr.adcImm 0xFF).mnemonic = .adc ∧ State.reset.flags.d = false ∧
      (State.reset.setFlags { State.reset.flags with d := true }).Calm ∧
      (State.reset.setFlags { State.reset.flags with d := true }).flags.d = true := by
  decide

theorem witness_SbcSubtractsWithBorrow :
    State.reset.Calm ∧ (Instr.sbcIndx 0xFF).mnemonic = .sbc ∧ State.reset.flags.d = false := by
  decide

theorem witness_DecimalArithmeticIsRight : isBcd 0x99 ∧ isBcd 0x00 := by unfold isBcd; decide

theorem witness_IncDecMemory :
    State.reset.Calm ∧ (Instr.incAbs 0xD010).mnemonic = .inc ∧ (Instr.decZpx 0xFF).mnemonic = .dec := by decide

theorem witness_IncDecRegisters : State.reset.Calm ∧ ∀ i ∈ [Instr.inx, .iny, .dex, .dey], i.operand = .imp := by decide

theorem witness_ShiftsAndRotates :
    State.reset.Calm ∧ (Instr.rorAcc).mnemonic ∈ [Mnemonic.asl, .lsr, .rol, .ror] ∧ (Instr.rorAcc).operand = .acc ∧
      (Instr.aslAbs 0xD012).mnemonic ∈ [Mnemonic.asl, .lsr, .rol, .ror] ∧
      (Instr.aslAbs 0xD012).operand = .mem (.abs 0xD012) := by
  decide

theorem witness_LogicOperations :
    State.reset.Calm ∧ (Instr.andImm 0x00).mnemonic ∈ [Mnemonic.and, .ora, .eor] ∧
      (Instr.oraIndx 0xFF).mnemonic ∈ [Mnemonic.and, .ora, .eor] ∧
      (Instr.eorAbsy 0xFFFF).mnemonic ∈ [Mnemonic.and, .ora, .eor] := by
  decide

theorem witness_ComparesSetFlags :
    State.reset.Calm ∧ (Instr.cmpImm 0x00).mnemonic ∈ [Mnemonic.cmp, .cpx, .cpy] ∧
      (Instr.cpxZp 0xFF).mnemonic ∈ [Mnemonic.cmp, .cpx, .cpy] ∧
      (Instr.cpyAbs 0xFFFF).mnemonic ∈ [Mnemonic.cmp, .cpx, .cpy] := by
  decide

theorem witness_BitTestsMemory : State.reset.Calm ∧ (Instr.bitAbs 0xD012).mnemonic = .bit := by decide

theorem witness_BranchesFollowTheirFlag :
    State.reset.Calm ∧ (Instr.bpl 0x80).operand = .rel 0x80 ∧ (Instr.beq 0x7F).operand = .rel 0x7F ∧
      State.reset.cfg.cycleCost = [] := by
  decide

theorem witness_TransfersCopyRegisters :
    State.reset.Calm ∧ ∀ i ∈ [Instr.tax, .txa, .tay, .tya, .tsx, .txs], i.operand = .imp := by
  decide

theorem witness_PushesWriteStackSlot : (State.reset.setSp 0x00).Calm ∧ (State.reset.setSp 0xFF).Calm := by decide

theorem witness_PullsReadStackSlot : (State.reset.setSp 0xFF).Calm ∧ (State.reset.setSp 0x00).Calm := by decide

theorem witness_PullsReadStackSlot_restore :
    (∃ t, exec .pha (State.reset.setSp 0x00) = .next t ∧ t.peek 0x0100 = State.reset.a) ∧
      ∃ t, exec .php (State.reset.setSp 0xFF) = .next t ∧
        t.peek 0x01FF = packP State.reset.cfg.phpBits54 State.reset.flags :=
  ⟨⟨_, rfl, by decide⟩, ⟨_, rfl, by decide⟩⟩

theorem witness_JumpsSetPc :
    State.reset.Calm ∧
      ({ State.reset with cfg := { Config.nibble with jmpIndPageWrap := true } } : State).Calm := by
  decide

theorem witness_JsrPushesReturnAddress : (State.reset.setSp 0x00).Calm ∧ (State.reset.setSp 0x01).Calm := by decide

theorem witness_RtsPullsReturnAddress :
    let s := ((State.reset.setSp 0xFE).poke 0x01FF 0xFF).poke 0x0100 0x01
    s.Calm ∧ s.sp = (0x00 : Byte) - 2 ∧ s.peek (BitVec.ofNat 16 (256 + (0 + 255) % 256)) = lowByte ((0x0200 : Word) - 1) ∧
      (s.afterRead (BitVec.ofNat 16 (256 + (0 + 255) % 256))).peek (BitVec.ofNat 16 (256 + 0)) =
        highByte ((0x0200 : Word) - 1) := by
  decide

theorem witness_FlagInstructionsWriteOneFlag :
    State.reset.Calm ∧ (∀ i ∈ [Instr.sec, .sed, .sei, .clc, .cld, .cli, .clv, .nop], i.operand = .imp) ∧
      State.reset.cfg.cycleCost = [] := by
  decide

theorem witness_BrkPushesAndVectors :
    State.reset.Calm ∧ State.reset.cfg.enableBrkRti = false ∧ (withBreak (State.reset.setSp 0x02)).Calm ∧
      (withBreak (State.reset.setSp 0x02)).cfg.enableBrkRti = true := by
  decide

theorem witness_RtiPullsStatusAndPc :
    State.reset.Calm ∧ State.reset.cfg.enableBrkRti = false ∧ (withBreak (State.reset.setSp 0xFD)).Calm ∧
      (withBreak (State.reset.setSp 0xFD)).cfg.enableBrkRti = true := by
  decide

/-- The ordinary machine, suppression off and the PIA registered, with BRK and RTI enabled. -/
theorem witness_ReturnComesBackAfterCall :
    let s := withBreak { State.reset with cfg := { Config.nibble with memSize := 512 } }
    s.suppress = false ∧ 512 ≤ s.cfg.memSize ∧ s.cfg.enableBrkRti = true ∧
      QuietFor (.jsr 0x0300) s ∧ (∀ a ∈ storedAddrs (.jsr 0x0300) s, s.quietRead a) ∧
      QuietFor .brk s ∧ (∀ a ∈ storedAddrs .brk s, s.quietRead a) ∧ (∃ t, exec (.jsr 0x0300) s = .next t) ∧
      ∃ t, exec .brk s = .next t :=
  ⟨rfl, by decide, rfl, ⟨each (by decide), each (by decide)⟩, each (by decide),
    ⟨each (by decide), each (by decide)⟩, each (by decide),
    next_of_isNext (by decide), next_of_isNext (by decide)⟩

theorem witness_RegisterWriters_FlagWriters :
    (∃ t, exec (.aslZp 0x10) State.reset = .next t) ∧ (Instr.aslZp 0x10).operand ≠ .acc ∧
      (Instr.aslZp 0x10).mnemonic ∉ [Mnemonic.lda, .adc, .sbc, .and, .ora, .eor, .txa, .tya, .pla] ∧
      (Instr.aslZp 0x10).mnemonic ∉ [Mnemonic.adc, .sbc, .bit, .clv, .plp, .rti] ∧
      (∃ t, exec .txs State.reset = .next t) ∧ (Instr.txs).mnemonic ∉ [Mnemonic.sei, .cli, .plp, .brk, .rti] :=
  ⟨⟨_, rfl⟩, by decide, by decide, by decide, ⟨_, rfl⟩, by decide⟩

/-- In the ordinary machine, and under suppression at an address with a handler. -/
theorem witness_MemoryFrameWithoutHandlers :
    State.reset.suppress = false ∧ QuietFor (.staAbs 0x0200) State.reset ∧ QuietFor (.ldaIndy 0xFF) State.reset ∧
      QuietFor (.staAbs 0xD012) silentState ∧ (∃ t, exec (.staAbs 0x0200) State.reset = .next t) ∧
      Instr.wf State.reset.cfg (.staAbs 0x0200) = true ∧ ∃ t, exec (.ldaIndy 0xFF) State.reset = .next t :=
  ⟨rfl, ⟨each (by decide), each (by decide)⟩, ⟨each (by decide), each (by decide)⟩,
    ⟨each (by decide), each (by decide)⟩, next_of_isNext (by decide), by decide,
    next_of_isNext (by decide)⟩

theorem witness_MemoryFrameWithoutHandlers_outside :
    ∀ a ∈ storedAddrs (.staAbs 0x0200) State.reset, State.reset.index 0x0201 ≠ State.reset.index a := by
  have h : storedAddrs (.staAbs 0x0200) State.reset = [0x0200] := rfl
  intro a ha
  rw [h, List.mem_singleton] at ha
  rw [ha]
  decide

theorem witness_MemoryFrameRecordOnly :
    State.reset.RecordOnly ∧ (∃ t, exec (.staAbs 0xD012) State.reset = .next t) ∧
      State.reset.index 0xD010 ≠ State.reset.index State.reset.kbdcr ∧
      State.reset.index 0xD010 ≠ State.reset.index State.reset.dsp :=
  ⟨by decide, ⟨_, rfl⟩, by decide, by decide⟩

theorem witness_MemoryFrameRecordOnly_outside :
    ∀ a ∈ storedAddrs (.staAbs 0xD012) State.reset, State.reset.index 0xD010 ≠ State.reset.index a := by
  have h : storedAddrs (.staAbs 0xD012) State.reset = [0xD012] := rfl
  intro a ha
  rw [h, List.mem_singleton] at ha
  rw [ha]
  decide

theorem witness_EveryInstructionCompletes :
    State.reset.Calm ∧ Instr.wf State.reset.cfg (.ldaImm 0) = true ∧ Instr.wf (withBreak State.reset).cfg .brk = true ∧
      Config.nibble.cycleCost = [] := by
  decide

theorem witness_StepKeepsInv :
    Inv (atPc [(0x0200, 0x8D), (0x0201, 0x12), (0x0202, 0xD0)]) ∧
      ∃ t, step (atPc [(0x0200, 0x8D), (0x0201, 0x12), (0x0202, 0xD0)]) = .next t :=
  ⟨by constructor <;> decide, ⟨_, rfl⟩⟩

theorem witness_ActionsKeepInv :
    Inv (State.reset.setRunning false) ∧
      (∃ t, act (.host (.loadBulk [0xA9] 0xFFFF)) (State.reset.setRunning false) = .next t) ∧
      (∃ t, act (.batch [[.run], [.stop]]) (State.reset.setRunning false) = .next t) ∧
      ∃ t, act .step (State.reset.setRunning false) = .next t :=
  ⟨by constructor <;> decide, ⟨_, rfl⟩, ⟨_, rfl⟩, ⟨_, rfl⟩⟩

theorem witness_StepTakesNothingBack : ∃ t, step (atPc [(0x0200, 0xEA)]) = .next t := ⟨_, rfl⟩

theorem witness_FlagsGateNothing :
    (∃ t, exec (.ldaImm 0x80) State.reset = .next t) ∧
      (Instr.ldaImm 0x80).mnemonic ∉ [Mnemonic.php, .plp, .sei, .cli, .brk, .rti] ∧
      (Instr.ldaImm 0x80).mnemonic ∉ [Mnemonic.adc, .sbc, .php, .plp, .sed, .cld, .brk, .rti] :=
  ⟨⟨_, rfl⟩, by decide, by decide⟩

theorem witness_WriteThenReadAliases :
    State.reset.quietRead 0xD00F ∧ State.reset.quietWrite 0xD014 ∧ State.reset.quietRead 0xFFFF ∧
      silentState.quietRead 0xD010 ∧ silentState.quietWrite 0xD013 := by
  decide

theorem witness_SuppressedAccessesRunNoHandler :
    HostCommand.isAccess (.seq (.writeByte 0xD012 0x8D) (.readShort 0xFFFF)) = true ∧ State.reset.running = false := by
  decide

theorem witness_HandlersFireOnceInOrder :
    let s := (((State.reset.addReadWatch 0x0200 (.ext 2)).addReadWatch 0x0200 (.ext 1)).addWriteWatch 0xFFFF (.ext 3))
    s.RecordOnly ∧ s.suppress = false ∧ s.watchers .read 0x0200 = [2, 1].map Handler.ext ∧
      s.watchers .write 0xFFFF = [3].map Handler.ext ∧ s.watchers .write 0x0200 = ([] : List Nat).map Handler.ext := by
  decide

theorem witness_HandlersFireOnceInOrder_returns :
    (runHandlers .read 0xD010 0x00 handledState).diverged = false ∧
      ((handledState.watchers .read 0xD010).foldl (invoke runHandlers .read 0xD010 0x00) handledState).diverged = false := by
  decide

theorem witness_KeyboardReadConsumes :
    State.reset.diverged = false ∧ State.reset.suppress = false ∧
      State.reset.watchers .read State.reset.kbd = .kbdRead :: ([] : List Nat).map Handler.ext ∧
      (State.reset.addReadWatch 0xD010 (.ext 4)).watchers .read State.reset.kbd = .kbdRead :: [4].map Handler.ext ∧
      State.reset.cfg.extHandler = [] := by
  decide

theorem witness_ControlAndDisplayWrites :
    let s := State.reset.addWriteWatch 0xD012 (.ext 4)
    s.diverged = false ∧ s.suppress = false ∧ s.cfg.extHandler = [] ∧
      s.watchers .write s.kbdcr = .kbdcrWrite :: ([] : List Nat).map Handler.ext ∧
      s.watchers .write s.dsp = .dspWrite :: [4].map Handler.ext ∧
      State.reset.watchers .write State.reset.dsp = .dspWrite :: ([] : List Nat).map Handler.ext ∧
      s.watchers .write s.dspcr = .dspcrWrite :: ([] : List Nat).map Handler.ext := by
  decide

theorem witness_InputCharacterIsDelivered :
    let tiny : State := { State.reset with cfg := { Config.nibble with memSize := 1, piaDropWhenDisabled := false } }
    (State.reset.cfg.piaDropWhenDisabled = true ∧ State.reset.latches.inputEnabled = false) ∧
      ¬ (tiny.cfg.piaDropWhenDisabled = true ∧ tiny.latches.inputEnabled = false) ∧
      tiny.index tiny.kbd = tiny.index tiny.kbdcr ∧
      State.reset.index State.reset.kbd ≠ State.reset.index State.reset.kbdcr := by
  decide

theorem witness_BulkTransfers :
    State.reset.running = false ∧ (0xFFFF : Word).toNat + [(0xA9 : Byte)].length ≤ State.reset.cfg.memSize ∧
      (0xFFFF : Word).toNat + [(0xA9 : Byte), 0x05].length > State.reset.cfg.memSize ∧
      (0xFFFF : Word).toNat + 1 = (0xFFFF : Word).toNat + [(0xA9 : Byte)].length ∧
      (0x01FF : Word).toNat < (0x0200 : Word).toNat ∧ (0xFFFF : Word).toNat < State.reset.cfg.memSize ∧
      ({ Config.nibble with memSize := 0x1000 } : Config).memSize ≤ (0x1000 : Word).toNat := by
  decide

theorem witness_ConstructionState :
    ({ Config.nibble with memSize := 0 } : Config).memSize = 0 ∧ 65536 < ({ Config.nibble with memSize := 65537 } : Config).memSize ∧
      1 ≤ ({ Config.nibble with memSize := 1 } : Config).memSize ∧ Config.nibble.memSize ≤ 65536 := by
  decide

theorem witness_CpuResetLoadsRegistersAndVector : silentState.Silent := by decide

theorem witness_HostAccessWhileRunningIsRefused :
    (atPc []).running = true ∧ ({ State.reset with refusalMark := true } : State).refusalMark = true ∧
      ∃ t, act (.host .cpuReset) { State.reset with refusalMark := true } = .next t :=
  ⟨by decide, by decide, ⟨_, rfl⟩⟩

theorem witness_BatchesEndAsStated :
    State.reset.running = false ∧ State.reset.diverged = false ∧ (batchWith [[]] State.reset).1 = .stopped ∧
      (batchWith [[]] (atPc [(0x0200, 0x02)])).1 = .fault ∧ (batchWith [[]] (atPc [(0x0200, 0xEA)])).1 = .yielded ∧
      (runEnd [[[]], [[.stop]]] (atPc [(0x0200, 0xEA)])).isSome = true ∧
      runEnd [[], [[]]] (atPc [(0x0200, 0xEA)]) = none := by
  decide

/-- A good end, and a faulted one. -/
theorem witness_BatchesEndAsStated_status :
    (∃ t, runStatus [[[]], [[.stop]]] (atPc [(0x0200, 0xEA)]) = .good t) ∧
      (∃ t, runStatus [[[]]] (atPc [(0x0200, 0xFF)]) = .faulted t) ∧
      runStatus [[[]]] (atPc [(0x0200, 0xEA)]) = .unfinished :=
  ⟨⟨_, rfl⟩, ⟨_, rfl⟩, rfl⟩

theorem witness_RunStopEvoke :
    (atPc []).running = true ∧ State.reset.running = false ∧ State.reset.diverged = false ∧
      ∃ t, exec (.staAbs 0x0200) handledState = .next t :=
  ⟨by decide, by decide, by decide, ⟨_, rfl⟩⟩

theorem witness_HostCommandsSpareTheCpu :
    HostCommand.sparesCpu (.suppressed (.seq (.writeByte 0x0200 1) (.processInputChar 0x41))) = true ∧
      State.reset.written.a = true ∧ (beforeReset [] State.reset).written.a = false := by
  decide

theorem witness_HostReadsWhileStopped : State.reset.running = false := by decide

end Sys2Proof.Machine
end

section
/-! SUPPORT. The family of 10_state.md, first part: what a step keeps (the invariant, and everything it never takes back).
Both are closed relations (`StepClosed`), so `step_closed` carries them over every step. -/

namespace Sys2Proof.Machine

/-! The mark of divergence: no next state carries it. -/

theorem settleWrites_diverged (op : Byte) (pc0 : Word) (i : Instr) (s t : State) :
    (settleWrites op pc0 i s t).diverged = t.diverged := by
  unfold settleWrites
  dsimp only
  split <;> rfl

theorem finish_next_not_diverged {s t : State} (h : finish s = .next t) : t.diverged = false := by
  obtain ⟨rfl, hd⟩ := finish_eq_next h
  exact hd

theorem exec_next_not_diverged {i : Instr} {s t : State} (h : exec i s = .next t) : t.diverged = false := by
  rcases exec_cases i s with ⟨u, he, -⟩ | ⟨-, he⟩ <;> rw [he] at h <;> exact finish_next_not_diverged h

theorem execute_next_not_diverged {op : Byte} {pc0 : Word} {i : Instr} {s t : State} (h : execute op pc0 i s = .next t) :
    t.diverged = false := by
  rcases execute_cases op pc0 i s with he | ⟨u, -, he⟩ | ⟨u, hu, he⟩ | ⟨r, -, he⟩ <;> rw [he] at h
  · exact exec_next_not_diverged h
  · exact finish_next_not_diverged h
  · obtain rfl := Host.Outcome.next.inj h
    rw [settleWrites_diverged]
    exact exec_next_not_diverged hu
  · cases h

theorem step_next_not_diverged {s t : State} (h : step s = .next t) : t.diverged = false := by
  rcases step_cases s with he | he | he | ⟨f, -, he⟩ <;> rw [he] at h
  · exact finish_next_not_diverged h
  · exact finish_next_not_diverged h
  · exact finish_next_not_diverged h
  · exact execute_next_not_diverged h

/-! The invariant. -/

/-- A settled instruction keeps the invariant: no rule marks `cycles` (`destinations_no_pc_cycles`), and where `cycles` is
written every mark was set before. -/
theorem inv_settled {s t : State} {regs : List Reg} (hs : Inv s) (ht : Inv t) (hc : Reg.cycles ∉ regs) :
    Inv (t.setWritten (regs.foldl Written.mark s.written)) where
  size := ht.size
  mem := ht.mem
  range := ht.range
  readWatch := ht.readWatch
  writeWatch := ht.writeWatch
  readHome := ht.readHome
  writeHome := ht.writeHome
  kbdFirst := ht.kbdFirst
  kbdcrFirst := ht.kbdcrFirst
  dspFirst := ht.dspFirst
  dspcrFirst := ht.dspcrFirst
  written hw := by
    have hcycles : s.written.has .cycles = true := (foldl_mark_keeps regs s.written .cycles hc).symm.trans hw
    show regs.foldl Written.mark s.written = .every true
    rw [hs.written hcycles, foldl_mark_every]

theorem inv_stepClosed : StepClosed (fun s t => Inv s → Inv t) where
  bus := inv_closed
  a _ _ h := inv_congr h rfl rfl rfl rfl rfl
  x _ _ h := inv_congr h rfl rfl rfl rfl rfl
  y _ _ h := inv_congr h rfl rfl rfl rfl rfl
  sp _ _ h := inv_congr h rfl rfl rfl rfl rfl
  pc _ _ h := inv_congr h rfl rfl rfl rfl rfl
  flags _ _ h := inv_congr h rfl rfl rfl rfl rfl
  cycles _ _ h := inv_congr h rfl rfl rfl rfl rfl
  fault _ _ _ _ h := inv_congr h rfl rfl rfl rfl rfl
  mark _ _ _ hR _ _ hc hs := inv_settled hs (hR hs) hc

/-- Settles O39: the invariant is a closed relation, and a step that ends in a next state has not diverged. -/
theorem stepKeepsInv : Obligations.StepKeepsInv := fun _ _ hs h =>
  ⟨step_closed inv_stepClosed h hs, step_next_not_diverged h⟩

/-! What no step takes back. -/

/-- Register writes and fault events take nothing back. -/
theorem stepKeeps_of_same {s t : State} (hcfg : t.cfg = s.cfg) (hsup : t.suppress = s.suppress)
    (hwr : t.written = s.written) (hrun : t.running = s.running) (htr : s.trace <+: t.trace)
    (hw : t.watchers = s.watchers) (hrm : t.refusalMark = s.refusalMark) : StepKeeps s t where
  cfg := hcfg
  suppress := hsup
  written r h := by rw [hwr]; exact h
  pcWritten := by rw [hwr]
  cyclesWritten := by rw [hwr]
  running h := hrun ▸ h
  trace := htr
  watchers dir a := by rw [hw]
  refusalMark h := hrm.trans h

/-- The settled marks only grow, those of PC and `cycles` not at all. -/
theorem stepKeeps_settled {s t : State} {regs : List Reg} (h : StepKeeps s t) (hpc : Reg.pc ∉ regs)
    (hc : Reg.cycles ∉ regs) : StepKeeps s (t.setWritten (regs.foldl Written.mark s.written)) where
  cfg := h.cfg
  suppress := h.suppress
  written r hr := foldl_mark_has regs s.written r hr
  pcWritten := foldl_mark_keeps regs s.written .pc hpc
  cyclesWritten := foldl_mark_keeps regs s.written .cycles hc
  running := h.running
  trace := h.trace
  watchers := h.watchers
  refusalMark := h.refusalMark

theorem stepKeeps_stepClosed : StepClosed StepKeeps where
  bus := stepKeeps_closed
  a _ _ := stepKeeps_of_same rfl rfl rfl rfl (List.prefix_refl _) rfl rfl
  x _ _ := stepKeeps_of_same rfl rfl rfl rfl (List.prefix_refl _) rfl rfl
  y _ _ := stepKeeps_of_same rfl rfl rfl rfl (List.prefix_refl _) rfl rfl
  sp _ _ := stepKeeps_of_same rfl rfl rfl rfl (List.prefix_refl _) rfl rfl
  pc _ _ := stepKeeps_of_same rfl rfl rfl rfl (List.prefix_refl _) rfl rfl
  flags _ _ := stepKeeps_of_same rfl rfl rfl rfl (List.prefix_refl _) rfl rfl
  cycles _ _ := stepKeeps_of_same rfl rfl rfl rfl (List.prefix_refl _) rfl rfl
  fault _ _ _ _ := stepKeeps_of_same rfl rfl rfl rfl (List.prefix_append _ _) rfl rfl
  mark _ _ _ h _ hpc hc := stepKeeps_settled h hpc hc

/-- Settles O41: taking nothing back is a closed relation. -/
theorem stepTakesNothingBack : Obligations.StepTakesNothingBack := fun _ _ h => step_closed stepKeeps_stepClosed h

end Sys2Proof.Machine
end

section
/-! SUPPORT. The family of 10_state.md, second part: what no instruction notices. A change of I, of D and of `cycles`
(`State.retouch`) commutes with every bus access, and with the effect of every instruction whose rule reads or writes none of
what is changed; `cycles` no rule reads. -/

namespace Sys2Proof.Machine

/-- The flags with I and D changed. -/
def Flags.retouch (p q : Bool → Bool) (g : Flags) : Flags := { g with i := p g.i, d := q g.d }

/-- The state with I, D and `cycles` changed. -/
def State.retouch (p q : Bool → Bool) (r : Cycles → Cycles) (s : State) : State :=
  { s with flags := Flags.retouch p q s.flags, cycles := r s.cycles }

theorem setCycles_eq_retouch (k : Cycles) (s : State) : s.setCycles k = s.retouch id id fun _ => k := rfl

theorem setI_eq_retouch (b : Bool) (s : State) :
    s.setFlags { s.flags with i := b } = s.retouch (fun _ => b) id id := rfl

theorem setD_eq_retouch (b : Bool) (s : State) :
    s.setFlags { s.flags with d := b } = s.retouch id (fun _ => b) id := rfl

/-- No handler sees such a change. -/
theorem retouch_commutes (p q : Bool → Bool) (r : Cycles → Cycles) : BusCommutes (State.retouch p q r) :=
  ⟨fun _ => rfl, fun _ => rfl, fun _ => rfl, fun _ _ _ => rfl, fun _ _ => rfl, fun _ _ _ => rfl, fun _ _ => rfl,
    fun _ _ => rfl, fun _ => rfl, fun _ _ _ => rfl, fun _ _ _ => rfl, fun _ => rfl, fun _ => rfl, fun _ => rfl, fun _ _ => rfl⟩

/-- The mnemonics whose rule reads or writes I (10_state.md R36). -/
def usersOfI : List Mnemonic := [.php, .plp, .sei, .cli, .brk, .rti]

/-- The mnemonics whose rule reads or writes D (10_state.md R36). -/
def usersOfD : List Mnemonic := [.adc, .sbc, .php, .plp, .sed, .cld, .brk, .rti]

section retouch
variable {p q : Bool → Bool} {r : Cycles → Cycles}

section fields
variable (s : State)
@[simp] theorem retouch_cfg : (s.retouch p q r).cfg = s.cfg := rfl
@[simp] theorem retouch_a : (s.retouch p q r).a = s.a := rfl
@[simp] theorem retouch_x : (s.retouch p q r).x = s.x := rfl
@[simp] theorem retouch_y : (s.retouch p q r).y = s.y := rfl
@[simp] theorem retouch_sp : (s.retouch p q r).sp = s.sp := rfl
@[simp] theorem retouch_pc : (s.retouch p q r).pc = s.pc := rfl
@[simp] theorem retouch_flags : (s.retouch p q r).flags = Flags.retouch p q s.flags := rfl
@[simp] theorem retouch_written : (s.retouch p q r).written = s.written := rfl
@[simp] theorem retouch_peek (a : Word) : (s.retouch p q r).peek a = s.peek a := rfl
@[simp] theorem setSp_retouch (v : Byte) : (s.retouch p q r).setSp v = (s.setSp v).retouch p q r := rfl
@[simp] theorem setPc_retouch (v : Word) : (s.retouch p q r).setPc v = (s.setPc v).retouch p q r := rfl
@[simp] theorem setFlags_retouch (g : Flags) :
    (s.retouch p q r).setFlags (Flags.retouch p q g) = (s.setFlags g).retouch p q r := rfl
@[simp] theorem afterRead_retouch (a : Word) : (s.retouch p q r).afterRead a = (s.afterRead a).retouch p q r :=
  afterRead_comm (retouch_commutes p q r) s a
@[simp] theorem memWrite_retouch (a : Word) (v : Byte) :
    (s.retouch p q r).memWrite a v = (s.memWrite a v).retouch p q r := memWrite_comm (retouch_commutes p q r) s a v
end fields

/-! The shared operations. -/

theorem effectiveAddress_retouch (m : MemMode) (s : State) :
    effectiveAddress m (s.retouch p q r) = ((effectiveAddress m s).1, (effectiveAddress m s).2.retouch p q r) :=
  effectiveAddress_comm (retouch_commutes p q r) (fun _ => rfl) (fun _ => rfl) m s

theorem readPair_retouch (lo hi : Word) (s : State) :
    (s.retouch p q r).readPair lo hi = ((s.readPair lo hi).1, (s.readPair lo hi).2.retouch p q r) := by
  simp [State.readPair, State.memRead]

theorem push_retouch (v : Byte) (s : State) : push v (s.retouch p q r) = (push v s).retouch p q r := by
  simp [push_eq]

theorem pull_retouch (s : State) : pull (s.retouch p q r) = ((pull s).1, (pull s).2.retouch p q r) := by
  simp [pull_eq]

theorem pushWord_retouch (w : Word) (s : State) : pushWord w (s.retouch p q r) = (pushWord w s).retouch p q r := by
  simp [pushWord, push_retouch]

theorem pullWord_retouch (s : State) : pullWord (s.retouch p q r) = ((pullWord s).1, (pullWord s).2.retouch p q r) := by
  simp [pullWord, pull_retouch]

theorem operandValue_retouch (o : Operand) (s : State) :
    operandValue o (s.retouch p q r) = (operandValue o s).map fun x => (x.1, x.2.retouch p q r) := by
  cases o with
  | mem m =>
    simp only [operandValue, effectiveAddress_retouch, State.memRead, afterRead_retouch, retouch_peek, Option.map_some]
  | imp | acc | imm | ind | rel => rfl

/-- An operation of the accumulator and M that leaves the changed flags alone. -/
theorem accumulate_retouch {alu : Byte → Byte → Flags → Byte × Flags}
    (h : ∀ a m g, alu a m (Flags.retouch p q g) = ((alu a m g).1, Flags.retouch p q (alu a m g).2)) (m : Byte) (s : State) :
    accumulate alu m (s.retouch p q r) = (accumulate alu m s).retouch p q r := by
  simp only [accumulate, retouch_a, retouch_flags, h]
  rfl

/-! The ALU: only ADC and SBC read D, and nothing in it reads I. -/

theorem adcAlu_retouch (a m : Byte) (g : Flags) :
    adcAlu a m (Flags.retouch p id g) = ((adcAlu a m g).1, Flags.retouch p id (adcAlu a m g).2) := by
  obtain ⟨c, z, i, d, v, n⟩ := g
  cases d <;> rfl

theorem sbcAlu_retouch (a m : Byte) (g : Flags) :
    sbcAlu a m (Flags.retouch p id g) = ((sbcAlu a m g).1, Flags.retouch p id (sbcAlu a m g).2) := by
  obtain ⟨c, z, i, d, v, n⟩ := g
  cases d <;> rfl

theorem modifyAlu_retouch {mn : Mnemonic} {alu : Byte → Flags → Byte × Flags} (h : modifyAlu mn = some alu) (v : Byte)
    (g : Flags) : alu v (Flags.retouch p q g) = ((alu v g).1, Flags.retouch p q (alu v g).2) := by
  cases mn <;> cases h <;> rfl

/-! The effects of the shapes. -/

theorem valueEffect_retouch {mn : Mnemonic} {eff : Byte → State → State} (h : valueEffect mn = some eff)
    (hd : mn ∈ usersOfD → q = id) (m : Byte) (s : State) :
    eff m (s.retouch p q r) = (eff m s).retouch p q r := by
  cases mn <;> cases h
  case adc => cases hd (by decide); exact accumulate_retouch adcAlu_retouch m s
  case sbc => cases hd (by decide); exact accumulate_retouch sbcAlu_retouch m s
  all_goals rfl

theorem storeMem_retouch {mn : Mnemonic} {reg : State → Byte} (h : storedRegister mn = some reg) (m : MemMode)
    (s : State) : storeMem m reg (s.retouch p q r) = (storeMem m reg s).retouch p q r := by
  have hreg : ∀ s : State, reg (s.retouch p q r) = reg s := by cases mn <;> cases h <;> exact fun _ => rfl
  simp [storeMem, effectiveAddress_retouch, hreg]

theorem modifyAcc_retouch {mn : Mnemonic} {alu : Byte → Flags → Byte × Flags} (h : modifyAlu mn = some alu) (s : State) :
    modifyAcc alu (s.retouch p q r) = (modifyAcc alu s).retouch p q r := by
  simp only [modifyAcc, retouch_a, retouch_flags, modifyAlu_retouch h]
  rfl

theorem modifyMem_retouch {mn : Mnemonic} {alu : Byte → Flags → Byte × Flags} (h : modifyAlu mn = some alu) (m : MemMode)
    (s : State) : modifyMem m alu (s.retouch p q r) = (modifyMem m alu s).retouch p q r := by
  simp [modifyMem, effectiveAddress_retouch, State.memRead, modifyAlu_retouch h]

theorem onRel_retouch {cond : Flags → Bool} (h : ∀ g, cond (Flags.retouch p q g) = cond g) (o : Operand) (s : State) :
    onRel cond o (s.retouch p q r) = (onRel cond o s).retouch p q r := by
  cases o with
  | rel d =>
    simp only [onRel, branch, retouch_flags, h]
    split <;> rfl
  | imp | acc | imm | mem | ind => rfl

theorem jumpTo_retouch (o : Operand) (s : State) : jumpTo o (s.retouch p q r) = (jumpTo o s).retouch p q r := by
  unfold jumpTo
  split
  · rfl
  · simp [indirectTarget, readPair_retouch]
  · rfl

theorem callTo_retouch (o : Operand) (s : State) : callTo o (s.retouch p q r) = (callTo o s).retouch p q r := by
  unfold callTo
  split
  · simp [callSubroutine, pushWord_retouch]
  · rfl

theorem plainEffect_retouch {mn : Mnemonic} {eff : Operand → State → State} (h : plainEffect mn = some eff)
    (hi : mn ∈ usersOfI → p = id) (hd : mn ∈ usersOfD → q = id) (o : Operand) (s : State) :
    eff o (s.retouch p q r) = (eff o s).retouch p q r := by
  cases mn <;> cases h
  case pha => exact push_retouch _ s
  case php => cases hi (by decide); cases hd (by decide); exact push_retouch _ s
  case pla => simp only [pull_retouch]; rfl
  case plp => cases hi (by decide); cases hd (by decide); simp only [pull_retouch]; rfl
  case jmp => exact jumpTo_retouch o s
  case jsr => exact callTo_retouch o s
  case rts => simp only [returnSubroutine, pullWord_retouch]; rfl
  case sei => cases hi (by decide); rfl
  case cli => cases hi (by decide); rfl
  case sed => cases hd (by decide); rfl
  case cld => cases hd (by decide); rfl
  case bpl | bmi | bvc | bvs | bcc | bcs | bne | beq => exact onRel_retouch (fun _ => rfl) o s
  all_goals rfl

/-- Where I and D keep their values, a write of all flags commutes with the change. -/
theorem setFlags_retouch_id (g : Flags) (s : State) :
    (s.retouch id id r).setFlags g = (s.setFlags g).retouch id id r := rfl

theorem enterBreak_retouch (s : State) : enterBreak (s.retouch id id r) = (enterBreak s).retouch id id r := by
  have hflags : ∀ g, Flags.retouch id id g = g := fun _ => rfl
  simp only [enterBreak, State.readShort, pushWord_retouch, push_retouch, retouch_pc, retouch_cfg, retouch_flags, hflags,
    setFlags_retouch_id, readPair_retouch, setPc_retouch]

theorem returnFromBreak_retouch (s : State) :
    returnFromBreak (s.retouch id id r) = (returnFromBreak s).retouch id id r := by
  simp only [returnFromBreak, pull_retouch, setFlags_retouch_id, pullWord_retouch, setPc_retouch]

/-- Two ends of an instruction, the second for the changed state: the same effect, or the same fault. -/
def SameEffect (p q : Bool → Bool) (r : Cycles → Cycles) (op : Byte) (o o' : Host.Outcome State Fault Refusal) : Prop :=
  (∃ u, o = complete op u ∧ o' = complete op (u.retouch p q r)) ∨ ∃ u, o = finish u ∧ o' = finish (u.retouch p q r)

/-- BRK and RTI, under either setting of ENABLE_BRK_RTI. -/
theorem brkRti_retouch {effect : State → State} (h : ∀ s : State, effect (s.retouch id id r) = (effect s).retouch id id r)
    (op : Byte) (s : State) :
    SameEffect id id r op (brkRti op effect s) (brkRti op effect (s.retouch id id r)) := by
  unfold brkRti
  rw [retouch_cfg, h]
  split
  · exact .inl ⟨effect s, rfl, rfl⟩
  · exact .inr ⟨raiseUnimplemented op (s.pc - 1) s, rfl, rfl⟩

/-- No instruction notices a change of what its rule neither reads nor writes. -/
theorem exec_retouch {i : Instr} (hi : i.mnemonic ∈ usersOfI → p = id) (hd : i.mnemonic ∈ usersOfD → q = id)
    (s : State) : SameEffect p q r i.opcode (exec i s) (exec i (s.retouch p q r)) := by
  rcases instr_shape i with ⟨eff, he⟩ | ⟨reg, he⟩ | ⟨alu, he⟩ | ⟨eff, he⟩ | rfl | rfl
  · obtain ⟨m, s1, ho, hs⟩ := exec_value he s
    obtain ⟨m', s1', ho', hs'⟩ := exec_value he (s.retouch p q r)
    rw [operandValue_retouch, ho] at ho'
    obtain ⟨rfl, rfl⟩ := Prod.mk.inj (Option.some.inj ho')
    rw [valueEffect_retouch he hd] at hs'
    exact .inl ⟨_, hs, hs'⟩
  · obtain ⟨m, ho, hs⟩ := exec_store he s
    obtain ⟨m', ho', hs'⟩ := exec_store he (s.retouch p q r)
    obtain rfl : m = m' := Operand.mem.inj (ho.symm.trans ho')
    exact .inl ⟨_, hs, hs'.trans (by rw [storeMem_retouch he])⟩
  · rcases exec_modify he s with ⟨ho, hs⟩ | ⟨m, ho, hs⟩ <;>
      rcases exec_modify he (s.retouch p q r) with ⟨ho', hs'⟩ | ⟨m', ho', hs'⟩
    · exact .inl ⟨_, hs, hs'.trans (by rw [modifyAcc_retouch he])⟩
    · cases ho.symm.trans ho'
    · cases ho.symm.trans ho'
    · obtain rfl : m = m' := Operand.mem.inj (ho.symm.trans ho')
      exact .inl ⟨_, hs, hs'.trans (by rw [modifyMem_retouch he])⟩
  · refine .inl ⟨_, exec_plain he s, (exec_plain he _).trans ?_⟩
    rw [plainEffect_retouch he hi hd]
  · cases hi (by decide)
    cases hd (by decide)
    exact brkRti_retouch enterBreak_retouch 0x00 s
  · cases hi (by decide)
    cases hd (by decide)
    exact brkRti_retouch returnFromBreak_retouch 0x40 s

theorem finish_of_not_diverged {s : State} (h : s.diverged = false) : finish s = .next s := by simp [finish, h]

/-- An instruction that ends in a next state ends in the changed one where it started from the changed one. -/
theorem exec_retouch_next {i : Instr} {s t : State} (hi : i.mnemonic ∈ usersOfI → p = id)
    (hd : i.mnemonic ∈ usersOfD → q = id) (h : exec i s = .next t) :
    exec i (s.retouch p q id) = .next (t.retouch p q id) := by
  rcases exec_retouch (r := id) hi hd s with ⟨u, hs, hs'⟩ | ⟨u, hs, hs'⟩ <;> rw [hs] at h <;> rw [hs']
  · obtain ⟨rfl, hu⟩ := complete_eq_next h
    exact finish_of_not_diverged hu
  · obtain ⟨rfl, hu⟩ := finish_eq_next h
    exact finish_of_not_diverged hu

end retouch

/-- Settles O43: a change of I alone is noticed by no instruction but the six that read or write it. -/
theorem interruptFlagGatesNothing : Obligations.InterruptFlagGatesNothing := by
  intro i s t b hmn h
  rw [setI_eq_retouch, setI_eq_retouch]
  exact exec_retouch_next (fun hm => absurd hm hmn) (fun _ => rfl) h

/-- Settles O44: a change of D alone is noticed by no instruction but ADC, SBC and the six that read or write it as a bit. -/
theorem decimalFlagAffectsAdcAndSbcOnly : Obligations.DecimalFlagAffectsAdcAndSbcOnly := by
  intro i s t b hmn h
  rw [setD_eq_retouch, setD_eq_retouch]
  exact exec_retouch_next (fun _ => rfl) (fun hm => absurd hm hmn) h

/-! `cycles`. -/

/-- The same outcome but for `cycles`. -/
def SameButCycles : Host.Outcome State Fault Refusal → Host.Outcome State Fault Refusal → Prop
  | .next t, o => ∃ k, o = .next (t.setCycles k)
  | .fault r, o => o = .fault r
  | .refused r, o => o = .refused r

theorem finish_setCycles (u : State) (k : Cycles) : SameButCycles (finish u) (finish (u.setCycles k)) := by
  unfold finish
  rw [setCycles_diverged]
  split
  · rfl
  · exact ⟨k, rfl⟩

theorem exec_setCycles (i : Instr) (s : State) (k : Cycles) : SameButCycles (exec i s) (exec i (s.setCycles k)) := by
  rw [setCycles_eq_retouch]
  rcases exec_retouch (i := i) (r := fun _ => k) (fun _ => rfl) (fun _ => rfl) s with
    ⟨u, hs, hs'⟩ | ⟨u, hs, hs'⟩ <;> rw [hs, hs']
  · exact finish_setCycles (u.setCycles _) _
  · exact finish_setCycles _ k

theorem firstUnwritten_setCycles (i : Instr) (s : State) (k : Cycles) :
    firstUnwritten i (s.setCycles k) = (firstUnwritten i s).map (State.setCycles k) := by
  unfold firstUnwritten
  rw [setCycles_eq_retouch, retouch_written]
  cases i.operand with
  | mem m =>
    simp only [effectiveAddress_retouch, afterRead_retouch]
    split_ifs <;> rfl
  | acc => dsimp only; split <;> rfl
  | imp | imm | ind | rel =>
    simp only [pushWord_retouch, retouch_pc]
    split_ifs <;> rfl

theorem settleWrites_setCycles (op : Byte) (pc0 : Word) (i : Instr) (s t : State) (k k' : Cycles) :
    ∃ k'', settleWrites op pc0 i (s.setCycles k) (t.setCycles k') = (settleWrites op pc0 i s t).setCycles k'' := by
  cases hc : s.written.cycles with
  | true => exact ⟨k', by simp only [settleWrites, setCycles_written, hc, if_true]; rfl⟩
  | false => exact ⟨k, by simp only [settleWrites, setCycles_written, hc]; rfl⟩

theorem fetched_setCycles (f : Form) (s : State) (k : Cycles) :
    fetched f (s.setCycles k) = ((fetched f s).1, (fetched f s).2.setCycles k) := by
  rw [setCycles_eq_retouch, setCycles_eq_retouch]
  cases f with
  | f1 i => simp only [fetched, fetchOperand, retouch_pc, afterRead_retouch, setPc_retouch]
  | f2 mk => simp only [fetched, fetchOperand, State.memRead, retouch_pc, retouch_peek, afterRead_retouch, setPc_retouch]
  | f3 mk =>
    simp only [fetched, fetchOperand, State.readShort, readPair_retouch, retouch_pc, afterRead_retouch, setPc_retouch]

theorem execute_setCycles (op : Byte) (pc0 : Word) (i : Instr) (s : State) (k : Cycles) :
    SameButCycles (execute op pc0 i s) (execute op pc0 i (s.setCycles k)) := by
  have hexec := exec_setCycles i s k
  unfold execute
  rw [setCycles_written, firstUnwritten_setCycles]
  split
  · exact hexec
  · cases firstUnwritten i s with
    | some t => exact finish_setCycles _ k
    | none =>
      dsimp only [Option.map_none]
      revert hexec
      cases exec i s with
      | next t =>
        rintro ⟨k', hk'⟩
        obtain ⟨k'', hk''⟩ := settleWrites_setCycles op pc0 i s t k k'
        exact ⟨k'', by rw [hk', ← hk'']⟩
      | fault r => intro h; rw [h]; rfl
      | refused r => intro h; rw [h]; rfl

theorem step_of_not_running {s : State} (h : s.running = false) : step s = finish s := if_neg (by simp [h])

theorem step_of_pc_unwritten {s : State} (h1 : s.running = true) (h2 : s.written.pc = false) :
    step s = finish (raiseUndefinedRead none none s) := (if_pos h1).trans (if_neg (by simp [h2]))

theorem step_setCycles (s : State) (k : Cycles) : SameButCycles (step s) (step (s.setCycles k)) := by
  cases hrun : s.running with
  | false =>
    rw [step_of_not_running hrun, step_of_not_running (s := s.setCycles k) hrun]
    exact finish_setCycles s k
  | true =>
    cases hpc : s.written.pc with
    | false =>
      rw [step_of_pc_unwritten hrun hpc, step_of_pc_unwritten (s := s.setCycles k) hrun hpc]
      exact finish_setCycles _ k
    | true =>
      rw [running_step hrun hpc, running_step (s := s.setCycles k) hrun hpc]
      simp only [setCycles_cfg, setCycles_pc, setCycles_peek, afterRead_setCycles, fetched_setCycles]
      cases decodeOpcode s.cfg.enableBrkRti (s.peek s.pc) with
      | none => exact finish_setCycles _ k
      | some f => exact execute_setCycles _ _ _ _ k

/-- Settles O42: `SameButCycles` is the statement's own relation of the two steps. -/
theorem cyclesAreNeverRead : Obligations.CyclesAreNeverRead := by
  intro s k
  have h := step_setCycles s k
  revert h
  cases step s <;> exact id

end Sys2Proof.Machine
end

section
/-! SUPPORT. The family of 10_state.md, third part: which registers an instruction writes. `exec` leaves every register alone
that is not among `writtenRegs`, the rules' own destinations with SP, PC and `cycles`; who writes which register is then read
off that table. -/

namespace Sys2Proof.Machine

/-- The register is the same in both states. -/
def SameReg (s t : State) : Reg → Prop
  | .a => t.a = s.a
  | .x => t.x = s.x
  | .y => t.y = s.y
  | .sp => t.sp = s.sp
  | .pc => t.pc = s.pc
  | .c => t.flags.c = s.flags.c
  | .z => t.flags.z = s.flags.z
  | .i => t.flags.i = s.flags.i
  | .d => t.flags.d = s.flags.d
  | .v => t.flags.v = s.flags.v
  | .n => t.flags.n = s.flags.n
  | .cycles => t.cycles = s.cycles

/-- Every register outside the list is the same in both states. -/
def KeepsExcept (regs : List Reg) (s t : State) : Prop := ∀ r, r ∉ regs → SameReg s t r

/-- SP and PC as an instruction moves them, which `ruleWrites` leaves out (10_state.md R34, 30_encoding.md R130). -/
def flowWrites : Mnemonic → List Reg
  | .pha | .php | .pla | .plp => [.sp]
  | .jsr | .rts | .brk | .rti => [.sp, .pc]
  | .bpl | .bmi | .bvc | .bvs | .bcc | .bcs | .bne | .beq | .jmp => [.pc]
  | _ => []

/-- All that a mnemonic writes but A in an accumulator form, and `cycles`. -/
def mnemonicWrites (mn : Mnemonic) : List Reg := ruleWrites mn ++ flowWrites mn

/-- All registers an instruction writes. -/
def writtenRegs (i : Instr) : List Reg :=
  .cycles :: (if i.operand = .acc then .a :: mnemonicWrites i.mnemonic else mnemonicWrites i.mnemonic)

section keeps
variable {regs : List Reg}

theorem keepsExcept_refl (s : State) : KeepsExcept regs s s := fun r _ => by cases r <;> rfl

theorem keepsExcept_trans {s t u : State} (h : KeepsExcept regs s t) (k : KeepsExcept regs t u) :
    KeepsExcept regs s u := fun r hr => by
  have h1 := h r hr
  have h2 := k r hr
  cases r <;> exact Eq.trans h2 h1

theorem keepsExcept_mono {regs' : List Reg} {s t : State} (h : KeepsExcept regs s t) (hsub : regs ⊆ regs') :
    KeepsExcept regs' s t := fun r hr => h r fun hm => hr (hsub hm)

/-- Bus accesses write no register. -/
theorem keepsExcept_of_sameCpu {s t : State} (h : SameCpu s t) : KeepsExcept regs s t := fun r _ => by
  cases r with
  | a => exact h.a
  | x => exact h.x
  | y => exact h.y
  | sp => exact h.sp
  | pc => exact h.pc
  | cycles => exact h.cycles
  | c | z | i | d | v | n => simp only [SameReg, h.flags]

theorem keepsExcept_setA (h : .a ∈ regs) (s : State) (v : Byte) : KeepsExcept regs s (s.setA v) := fun r hr => by
  cases r with
  | a => exact absurd h hr
  | x | y | sp | pc | c | z | i | d | v | n | cycles => rfl

theorem keepsExcept_setX (h : .x ∈ regs) (s : State) (v : Byte) : KeepsExcept regs s (s.setX v) := fun r hr => by
  cases r with
  | x => exact absurd h hr
  | a | y | sp | pc | c | z | i | d | v | n | cycles => rfl

theorem keepsExcept_setY (h : .y ∈ regs) (s : State) (v : Byte) : KeepsExcept regs s (s.setY v) := fun r hr => by
  cases r with
  | y => exact absurd h hr
  | a | x | sp | pc | c | z | i | d | v | n | cycles => rfl

theorem keepsExcept_setSp (h : .sp ∈ regs) (s : State) (v : Byte) : KeepsExcept regs s (s.setSp v) := fun r hr => by
  cases r with
  | sp => exact absurd h hr
  | a | x | y | pc | c | z | i | d | v | n | cycles => rfl

theorem keepsExcept_setPc (h : .pc ∈ regs) (s : State) (v : Word) : KeepsExcept regs s (s.setPc v) := fun r hr => by
  cases r with
  | pc => exact absurd h hr
  | a | x | y | sp | c | z | i | d | v | n | cycles => rfl

theorem keepsExcept_setCycles (h : .cycles ∈ regs) (s : State) (k : Cycles) : KeepsExcept regs s (s.setCycles k) :=
  fun r hr => by
  cases r with
  | cycles => exact absurd h hr
  | a | x | y | sp | pc | c | z | i | d | v | n => rfl

/-- The flags outside the list are the same. -/
structure FlagsKept (regs : List Reg) (f g : Flags) : Prop where
  c : .c ∉ regs → g.c = f.c
  z : .z ∉ regs → g.z = f.z
  i : .i ∉ regs → g.i = f.i
  d : .d ∉ regs → g.d = f.d
  v : .v ∉ regs → g.v = f.v
  n : .n ∉ regs → g.n = f.n

theorem keepsExcept_setFlags {s : State} {g : Flags} (h : FlagsKept regs s.flags g) : KeepsExcept regs s (s.setFlags g) :=
  fun r hr => by
  cases r with
  | c => exact h.c hr
  | z => exact h.z hr
  | i => exact h.i hr
  | d => exact h.d hr
  | v => exact h.v hr
  | n => exact h.n hr
  | a | x | y | sp | pc | cycles => rfl

theorem flagsKept_setNZ (hz : .z ∈ regs) (hn : .n ∈ regs) (v : Byte) (f : Flags) : FlagsKept regs f (setNZ v f) :=
  ⟨fun _ => rfl, absurd hz, fun _ => rfl, fun _ => rfl, fun _ => rfl, absurd hn⟩

theorem flagsKept_all (h : flagRegs ⊆ regs) (f g : Flags) : FlagsKept regs f g :=
  ⟨absurd (h (by decide)), absurd (h (by decide)), absurd (h (by decide)), absurd (h (by decide)),
    absurd (h (by decide)), absurd (h (by decide))⟩

/-! The shared operations. -/

theorem push_keeps (h : .sp ∈ regs) (v : Byte) (s : State) : KeepsExcept regs s (push v s) :=
  keepsExcept_trans (keepsExcept_of_sameCpu (memWrite_sameCpu s _ v)) (keepsExcept_setSp h _ _)

theorem pull_keeps (h : .sp ∈ regs) (s : State) : KeepsExcept regs s (pull s).2 :=
  keepsExcept_trans (keepsExcept_setSp h s _) (keepsExcept_of_sameCpu (afterRead_sameCpu _ _))

theorem pushWord_keeps (h : .sp ∈ regs) (w : Word) (s : State) : KeepsExcept regs s (pushWord w s) :=
  keepsExcept_trans (push_keeps h _ s) (push_keeps h _ _)

theorem pullWord_keeps (h : .sp ∈ regs) (s : State) : KeepsExcept regs s (pullWord s).2 :=
  keepsExcept_trans (pull_keeps h s) (pull_keeps h _)

theorem setA_setFlags_keeps (ha : .a ∈ regs) {s : State} {g : Flags} (h : FlagsKept regs s.flags g) (v : Byte) :
    KeepsExcept regs s ((s.setA v).setFlags g) :=
  keepsExcept_trans (keepsExcept_setA ha s v) (keepsExcept_setFlags (s := s.setA v) h)

theorem setX_setFlags_keeps (hx : .x ∈ regs) {s : State} {g : Flags} (h : FlagsKept regs s.flags g) (v : Byte) :
    KeepsExcept regs s ((s.setX v).setFlags g) :=
  keepsExcept_trans (keepsExcept_setX hx s v) (keepsExcept_setFlags (s := s.setX v) h)

theorem setY_setFlags_keeps (hy : .y ∈ regs) {s : State} {g : Flags} (h : FlagsKept regs s.flags g) (v : Byte) :
    KeepsExcept regs s ((s.setY v).setFlags g) :=
  keepsExcept_trans (keepsExcept_setY hy s v) (keepsExcept_setFlags (s := s.setY v) h)

theorem accumulate_keeps (ha : .a ∈ regs) {alu : Byte → Byte → Flags → Byte × Flags}
    (h : ∀ a m f, FlagsKept regs f (alu a m f).2) (m : Byte) (s : State) : KeepsExcept regs s (accumulate alu m s) :=
  setA_setFlags_keeps ha (h s.a m s.flags) _

theorem onRel_keeps (h : .pc ∈ regs) (cond : Flags → Bool) (o : Operand) (s : State) :
    KeepsExcept regs s (onRel cond o s) := by
  cases o with
  | rel d =>
    simp only [onRel, branch]
    split
    · exact keepsExcept_setPc h s _
    · exact keepsExcept_refl s
  | imp | acc | imm | mem | ind => exact keepsExcept_refl s

theorem jumpTo_keeps (h : .pc ∈ regs) (o : Operand) (s : State) : KeepsExcept regs s (jumpTo o s) := by
  unfold jumpTo
  split
  · exact keepsExcept_setPc h s _
  · exact keepsExcept_trans (keepsExcept_of_sameCpu (readPair_sameCpu s _ _)) (keepsExcept_setPc h _ _)
  · exact keepsExcept_refl s

theorem callTo_keeps (hsp : .sp ∈ regs) (hpc : .pc ∈ regs) (o : Operand) (s : State) :
    KeepsExcept regs s (callTo o s) := by
  unfold callTo
  split
  · exact keepsExcept_trans (pushWord_keeps hsp _ s) (keepsExcept_setPc hpc _ _)
  · exact keepsExcept_refl s

theorem storeMem_keeps (m : MemMode) (reg : State → Byte) (s : State) : KeepsExcept regs s (storeMem m reg s) :=
  keepsExcept_trans (keepsExcept_of_sameCpu (effectiveAddress_sameCpu s m))
    (keepsExcept_of_sameCpu (memWrite_sameCpu _ _ _))

theorem modifyMem_keeps {alu : Byte → Flags → Byte × Flags} (h : ∀ v f, FlagsKept regs f (alu v f).2) (m : MemMode)
    (s : State) : KeepsExcept regs s (modifyMem m alu s) := by
  have hread : SameCpu s ((effectiveAddress m s).2.afterRead (effectiveAddress m s).1) :=
    sameCpu_closed.trans (effectiveAddress_sameCpu s m) (afterRead_sameCpu _ _)
  refine keepsExcept_trans (keepsExcept_of_sameCpu (sameCpu_closed.trans hread (memWrite_sameCpu _ _ _)))
    (keepsExcept_setFlags ?_)
  rw [memWrite_flags]
  exact h _ _

theorem raiseUnimplemented_keeps (h : .pc ∈ regs) (op : Byte) (pc0 : Word) (s : State) :
    KeepsExcept regs s (raiseUnimplemented op pc0 s) := keepsExcept_setPc h s pc0

end keeps

/-! The ALU writes the flags of its mnemonic alone. -/

theorem adcAlu_kept (a m : Byte) (f : Flags) : FlagsKept (mnemonicWrites .adc) f (adcAlu a m f).2 := by
  unfold adcAlu
  split <;> exact ⟨absurd (by decide), absurd (by decide), fun _ => rfl, fun _ => rfl, absurd (by decide), absurd (by decide)⟩

theorem sbcAlu_kept (a m : Byte) (f : Flags) : FlagsKept (mnemonicWrites .sbc) f (sbcAlu a m f).2 :=
  ⟨absurd (by decide), absurd (by decide), fun _ => rfl, fun _ => rfl, absurd (by decide), absurd (by decide)⟩

theorem compareAlu_kept {regs : List Reg} (hc : .c ∈ regs) (hz : .z ∈ regs) (hn : .n ∈ regs) (r m : Byte) (f : Flags) :
    FlagsKept regs f (compareAlu r m f) :=
  ⟨absurd hc, absurd hz, fun _ => rfl, fun _ => rfl, fun _ => rfl, absurd hn⟩

theorem bitAlu_kept (a m : Byte) (f : Flags) : FlagsKept (mnemonicWrites .bit) f (bitAlu a m f) :=
  ⟨fun _ => rfl, absurd (by decide), fun _ => rfl, fun _ => rfl, absurd (by decide), absurd (by decide)⟩

/-- A shift writes C, and N and Z as `setNZ` does. -/
theorem flagsKept_shift {regs : List Reg} (hc : .c ∈ regs) (hz : .z ∈ regs) (hn : .n ∈ regs) (b : Bool) (v : Byte)
    (f : Flags) : FlagsKept regs f (setNZ v { f with c := b }) :=
  ⟨absurd hc, absurd hz, fun _ => rfl, fun _ => rfl, fun _ => rfl, absurd hn⟩

theorem modifyAlu_kept {mn : Mnemonic} {alu : Byte → Flags → Byte × Flags} (h : modifyAlu mn = some alu) (v : Byte)
    (f : Flags) : FlagsKept (mnemonicWrites mn) f (alu v f).2 := by
  cases mn <;> cases h
  case inc | dec => exact flagsKept_setNZ (by decide) (by decide) _ f
  case asl | lsr | rol | ror => exact flagsKept_shift (by decide) (by decide) (by decide) _ _ f

/-! The effects of the shapes. -/

theorem valueEffect_keeps {mn : Mnemonic} {eff : Byte → State → State} (h : valueEffect mn = some eff) (m : Byte)
    (s : State) : KeepsExcept (mnemonicWrites mn) s (eff m s) := by
  cases mn <;> cases h
  case lda => exact setA_setFlags_keeps (by decide) (flagsKept_setNZ (by decide) (by decide) m _) m
  case ldx => exact setX_setFlags_keeps (by decide) (flagsKept_setNZ (by decide) (by decide) m _) m
  case ldy => exact setY_setFlags_keeps (by decide) (flagsKept_setNZ (by decide) (by decide) m _) m
  case adc => exact accumulate_keeps (by decide) adcAlu_kept m s
  case sbc => exact accumulate_keeps (by decide) sbcAlu_kept m s
  case and | ora | eor =>
    exact accumulate_keeps (by decide) (fun _ _ => flagsKept_setNZ (by decide) (by decide) _) m s
  case cmp | cpx | cpy => exact keepsExcept_setFlags (compareAlu_kept (by decide) (by decide) (by decide) _ m _)
  case bit => exact keepsExcept_setFlags (bitAlu_kept _ m _)

theorem plainEffect_keeps {mn : Mnemonic} {eff : Operand → State → State} (h : plainEffect mn = some eff) (o : Operand)
    (s : State) : KeepsExcept (mnemonicWrites mn) s (eff o s) := by
  cases mn <;> cases h
  case txa | tya => exact setA_setFlags_keeps (by decide) (flagsKept_setNZ (by decide) (by decide) _ _) _
  case inx | dex | tax | tsx => exact setX_setFlags_keeps (by decide) (flagsKept_setNZ (by decide) (by decide) _ _) _
  case iny | dey | tay => exact setY_setFlags_keeps (by decide) (flagsKept_setNZ (by decide) (by decide) _ _) _
  case bpl | bmi | bvc | bvs | bcc | bcs | bne | beq => exact onRel_keeps (by decide) _ o s
  case txs => exact keepsExcept_setSp (by decide) s _
  case pha | php => exact push_keeps (by decide) _ s
  case pla =>
    exact keepsExcept_trans (pull_keeps (by decide) s)
      (setA_setFlags_keeps (by decide) (flagsKept_setNZ (by decide) (by decide) _ _) _)
  case plp =>
    exact keepsExcept_trans (pull_keeps (by decide) s) (keepsExcept_setFlags (flagsKept_all (by decide) _ _))
  case jmp => exact jumpTo_keeps (by decide) o s
  case jsr => exact callTo_keeps (by decide) (by decide) o s
  case rts => exact keepsExcept_trans (pullWord_keeps (by decide) s) (keepsExcept_setPc (by decide) _ _)
  case sec | clc =>
    exact keepsExcept_setFlags
      ⟨absurd (by decide), fun _ => rfl, fun _ => rfl, fun _ => rfl, fun _ => rfl, fun _ => rfl⟩
  case sei | cli =>
    exact keepsExcept_setFlags
      ⟨fun _ => rfl, fun _ => rfl, absurd (by decide), fun _ => rfl, fun _ => rfl, fun _ => rfl⟩
  case sed | cld =>
    exact keepsExcept_setFlags
      ⟨fun _ => rfl, fun _ => rfl, fun _ => rfl, absurd (by decide), fun _ => rfl, fun _ => rfl⟩
  case clv =>
    exact keepsExcept_setFlags
      ⟨fun _ => rfl, fun _ => rfl, fun _ => rfl, fun _ => rfl, absurd (by decide), fun _ => rfl⟩
  case nop => exact keepsExcept_refl s

theorem enterBreak_keeps (s : State) : KeepsExcept (mnemonicWrites .brk) s (enterBreak s) := by
  have hpush := keepsExcept_trans (pushWord_keeps (regs := mnemonicWrites .brk) (by decide) (s.pc + 1) s)
    (push_keeps (by decide) (packBreak (pushWord (s.pc + 1) s).cfg.phpBits54 (pushWord (s.pc + 1) s).flags) _)
  refine keepsExcept_trans hpush (keepsExcept_trans (keepsExcept_setFlags ?_)
    (keepsExcept_trans (keepsExcept_of_sameCpu (readPair_sameCpu _ _ _)) (keepsExcept_setPc (by decide) _ _)))
  exact ⟨fun _ => rfl, fun _ => rfl, absurd (by decide), fun _ => rfl, fun _ => rfl, fun _ => rfl⟩

theorem returnFromBreak_keeps (s : State) : KeepsExcept (mnemonicWrites .rti) s (returnFromBreak s) :=
  keepsExcept_trans (pull_keeps (by decide) s)
    (keepsExcept_trans (keepsExcept_setFlags (flagsKept_all (by decide) _ _))
      (keepsExcept_trans (pullWord_keeps (by decide) _) (keepsExcept_setPc (by decide) _ _)))

/-! Any instruction. -/

theorem mnemonicWrites_subset (i : Instr) : mnemonicWrites i.mnemonic ⊆ writtenRegs i := by
  intro r hr
  unfold writtenRegs
  split <;> simp [hr]

theorem cycles_mem_writtenRegs (i : Instr) : .cycles ∈ writtenRegs i := List.mem_cons_self ..

theorem complete_keeps {i : Instr} {s t u : State} (h : KeepsExcept (writtenRegs i) s u)
    (ht : complete i.opcode u = .next t) : KeepsExcept (writtenRegs i) s t := by
  obtain ⟨rfl, -⟩ := complete_eq_next ht
  exact keepsExcept_trans h (keepsExcept_setCycles (cycles_mem_writtenRegs i) u _)

/-- BRK and RTI, under either setting of ENABLE_BRK_RTI. -/
theorem brkRti_keeps {i : Instr} {effect : State → State} (hpc : .pc ∈ mnemonicWrites i.mnemonic)
    (h : ∀ s, KeepsExcept (mnemonicWrites i.mnemonic) s (effect s)) {s t : State}
    (ht : brkRti i.opcode effect s = .next t) : KeepsExcept (writtenRegs i) s t := by
  unfold brkRti at ht
  split at ht
  · exact complete_keeps (keepsExcept_mono (h s) (mnemonicWrites_subset i)) ht
  · obtain ⟨rfl, -⟩ := finish_eq_next ht
    exact raiseUnimplemented_keeps (mnemonicWrites_subset i hpc) _ _ s

/-- An instruction leaves every register alone that is not among those it writes (10_state.md R30 to R36). -/
theorem exec_keeps {i : Instr} {s t : State} (h : exec i s = .next t) : KeepsExcept (writtenRegs i) s t := by
  have hsub := mnemonicWrites_subset i
  rcases instr_shape i with ⟨eff, he⟩ | ⟨reg, he⟩ | ⟨alu, he⟩ | ⟨eff, he⟩ | rfl | rfl
  · obtain ⟨m, s1, ho, hs⟩ := exec_value he s
    have hs1 : SameCpu s s1 := operandValue_closed sameCpu_closed ho
    exact complete_keeps (keepsExcept_trans (keepsExcept_of_sameCpu hs1)
      (keepsExcept_mono (valueEffect_keeps he m s1) hsub)) (hs ▸ h)
  · obtain ⟨m, -, hs⟩ := exec_store he s
    exact complete_keeps (storeMem_keeps m reg s) (hs ▸ h)
  · have halu v f := modifyAlu_kept he v f
    rcases exec_modify he s with ⟨ho, hs⟩ | ⟨m, -, hs⟩
    · have ha : .a ∈ writtenRegs i := by simp [writtenRegs, ho]
      have hflags := keepsExcept_setFlags (s := s.setA (alu s.a s.flags).1) (halu s.a s.flags)
      exact complete_keeps (keepsExcept_trans (keepsExcept_setA ha s _) (keepsExcept_mono hflags hsub)) (hs ▸ h)
    · exact complete_keeps (keepsExcept_mono (modifyMem_keeps halu m s) hsub) (hs ▸ h)
  · exact complete_keeps (keepsExcept_mono (plainEffect_keeps he _ s) hsub) (exec_plain he s ▸ h)
  · exact brkRti_keeps (i := .brk) (by decide) enterBreak_keeps h
  · exact brkRti_keeps (i := .rti) (by decide) returnFromBreak_keeps h

/-! Who writes which register. -/

/-- The mnemonics that write N and Z, by the table of 10_state.md R36. -/
def nzWriters : List Mnemonic :=
  [.lda, .ldx, .ldy, .adc, .sbc, .and, .ora, .eor, .cmp, .cpx, .cpy, .bit, .inc, .dec, .inx, .iny, .dex, .dey, .asl, .lsr,
    .rol, .ror, .tax, .tay, .txa, .tya, .tsx, .pla, .plp, .rti]

/-- The mnemonics that write a register (10_state.md R30 to R36), A by an accumulator form apart. `cycles` is not asked. -/
def writersOf : Reg → List Mnemonic
  | .a => [.lda, .adc, .sbc, .and, .ora, .eor, .txa, .tya, .pla]
  | .x => [.ldx, .inx, .dex, .tax, .tsx]
  | .y => [.ldy, .iny, .dey, .tay]
  | .sp => [.txs, .pha, .php, .pla, .plp, .jsr, .rts, .brk, .rti]
  | .pc => [.bpl, .bmi, .bvc, .bvs, .bcc, .bcs, .bne, .beq, .jmp, .jsr, .rts, .brk, .rti]
  | .c => [.adc, .sbc, .cmp, .cpx, .cpy, .asl, .lsr, .rol, .ror, .sec, .clc, .plp, .rti]
  | .z | .n => nzWriters
  | .i => [.sei, .cli, .plp, .brk, .rti]
  | .d => [.sed, .cld, .plp, .rti]
  | .v => [.adc, .sbc, .bit, .clv, .plp, .rti]
  | .cycles => []

/-- The table by mnemonic and the table by register agree. -/
theorem mem_writersOf {mn : Mnemonic} : ∀ r ∈ mnemonicWrites mn, mn ∈ writersOf r := by
  cases mn <;> decide

/-- A register is left alone by every instruction that is not listed as writing it. -/
theorem exec_sameReg {i : Instr} {s t : State} (h : exec i s = .next t) {r : Reg} (hr : r ≠ .cycles)
    (hacc : r = .a → i.operand ≠ .acc) (hmn : i.mnemonic ∉ writersOf r) : SameReg s t r := by
  have hrule : r ∉ mnemonicWrites i.mnemonic := fun hm => hmn (mem_writersOf r hm)
  refine exec_keeps h r ?_
  unfold writtenRegs
  split
  · next ho => simp [hr, hrule, show r ≠ .a from fun ha => hacc ha ho]
  · simp [hr, hrule]

/-- Settles O32: A, X, Y, SP and PC are left alone by every instruction that `writersOf` does not list. -/
theorem registerWriters : Obligations.RegisterWriters := fun _ _ _ h =>
  ⟨fun hmn ho => exec_sameReg (r := .a) h (by decide) (fun _ => ho) hmn,
    exec_sameReg (r := .x) h (by decide) nofun, exec_sameReg (r := .y) h (by decide) nofun,
    exec_sameReg (r := .sp) h (by decide) nofun, exec_sameReg (r := .pc) h (by decide) nofun⟩

/-- Settles O33: each flag is left alone by every instruction that `writersOf` does not list. -/
theorem flagWriters : Obligations.FlagWriters := fun _ _ _ h =>
  ⟨exec_sameReg (r := .c) h (by decide) nofun,
    fun hmn => ⟨exec_sameReg (r := .z) h (by decide) nofun hmn, exec_sameReg (r := .n) h (by decide) nofun hmn⟩,
    exec_sameReg (r := .i) h (by decide) nofun, exec_sameReg (r := .d) h (by decide) nofun,
    exec_sameReg (r := .v) h (by decide) nofun⟩

end Sys2Proof.Machine
end

section
/-! SUPPORT. The family of 10_state.md, fourth part: the block at construction and right after reset. -/

namespace Sys2Proof.Machine

/-- A size is accepted from 1 to 65536 (20_memory.md R85). -/
theorem config_wf_iff (cfg : Config) : cfg.wf = true ↔ 1 ≤ cfg.memSize ∧ cfg.memSize ≤ 65536 := by
  simp [Config.wf]

/-- The state `init(size)` of the bus and then `init(bus)` of the CPU leave for an accepted size (60_exceptions.md R437):
nothing registered yet. -/
def beforePia (cfg : Config) : State :=
  { State.reset with
    cfg := cfg, sp := 0, readWatch := [], writeWatch := []
    flags := { c := false, z := false, i := false, d := false, v := false, n := false }, written := .every false }

theorem construct_of_wf {cfg : Config} (h : cfg.wf = true) : construct cfg = .ok (piaInit (beforePia cfg)) := by
  simp only [construct, busInit, h, if_true]
  rfl

theorem construct_of_not_wf {cfg : Config} (h : cfg.wf = false) : construct cfg = .error .invalidSize := by
  simp only [construct, busInit, h]
  rfl

/-! The four registrations of the PIA. -/

theorem piaInit_read (cfg : Config) (a : Word) :
    (piaInit (beforePia cfg)).watchers .read a = if a = cfg.piaBase then [.kbdRead] else [] := by
  have hbase : (beforePia cfg).kbd = cfg.piaBase := rfl
  have hnone : (beforePia cfg).watchers .read a = [] := rfl
  simp [piaInit, watchers_addWriteWatch, watchers_addReadWatch, hbase, hnone]

theorem piaInit_write (cfg : Config) (a : Word) :
    (piaInit (beforePia cfg)).watchers .write a =
      if a = cfg.piaBase + 1 then [.kbdcrWrite] else if a = cfg.piaBase + 2 then [.dspWrite]
      else if a = cfg.piaBase + 3 then [.dspcrWrite] else [] := by
  have hkbdcr : (beforePia cfg).kbdcr = cfg.piaBase + 1 := rfl
  have hdsp : (beforePia cfg).dsp = cfg.piaBase + 2 := rfl
  have hdspcr : (beforePia cfg).dspcr = cfg.piaBase + 3 := rfl
  have hnone : ∀ k, (beforePia cfg).watchers .write k = [] := fun _ => rfl
  by_cases h1 : a = cfg.piaBase + 1#16
  · simp [piaInit, watchers_addWriteWatch, watchers_addReadWatch, hkbdcr, hdsp, hdspcr, hnone, h1]
  · by_cases h2 : a = cfg.piaBase + 2#16 <;>
      simp [piaInit, watchers_addWriteWatch, watchers_addReadWatch, hkbdcr, hdsp, hdspcr, hnone, h1, h2]

/-- An update at an address keeps a watch map canonical and keyed by words. -/
theorem updateAt_keyed {l : List (Nat × List Handler)} (h : WatchMap.wf l ∧ ∀ p ∈ l, p.1 < 65536) (a : Word)
    (hs : List Handler) : WatchMap.wf (updateAt [] l a.toNat hs) ∧ ∀ p ∈ updateAt [] l a.toNat hs, p.1 < 65536 := by
  refine ⟨updateAt_canonical _ _ h.1, fun p hp => ?_⟩
  rcases mem_updateAt hp with rfl | hp
  · exact a.isLt
  · exact h.2 p hp

/-- An entry of such a map is an address with the handlers looked up there. -/
theorem entry_of_mem {l : List (Nat × List Handler)} (h : WatchMap.wf l ∧ ∀ p ∈ l, p.1 < 65536) {p : Nat × List Handler}
    (hp : p ∈ l) : ∃ a : Word, p.1 = a.toNat ∧ p.2 = lookupAt [] l a.toNat := by
  have hkey : p.1 = (BitVec.ofNat 16 p.1).toNat := (Nat.mod_eq_of_lt (h.2 p hp)).symm
  exact ⟨_, hkey, by rw [← hkey, lookupAt_of_mem h.1.1 hp]⟩

theorem no_watches_keyed : WatchMap.wf [] ∧ ∀ p ∈ ([] : List (Nat × List Handler)), p.1 < 65536 :=
  ⟨⟨List.Pairwise.nil, nofun⟩, nofun⟩

theorem piaInit_readWatch_keyed (cfg : Config) :
    WatchMap.wf (piaInit (beforePia cfg)).readWatch ∧ ∀ p ∈ (piaInit (beforePia cfg)).readWatch, p.1 < 65536 :=
  updateAt_keyed (l := []) no_watches_keyed cfg.piaBase [.kbdRead]

theorem addWriteWatch_keyed {s : State} (h : WatchMap.wf s.writeWatch ∧ ∀ p ∈ s.writeWatch, p.1 < 65536) (a : Word)
    (g : Handler) : WatchMap.wf (s.addWriteWatch a g).writeWatch ∧ ∀ p ∈ (s.addWriteWatch a g).writeWatch, p.1 < 65536 :=
  updateAt_keyed h a _

theorem piaInit_writeWatch_keyed (cfg : Config) :
    WatchMap.wf (piaInit (beforePia cfg)).writeWatch ∧ ∀ p ∈ (piaInit (beforePia cfg)).writeWatch, p.1 < 65536 := by
  unfold piaInit
  exact addWriteWatch_keyed (addWriteWatch_keyed (addWriteWatch_keyed no_watches_keyed _ _) _ _) _ _

theorem piaInit_inv {cfg : Config} (h : cfg.wf = true) : Inv (piaInit (beforePia cfg)) where
  size := h
  mem := ⟨List.Pairwise.nil, nofun⟩
  range := nofun
  readWatch := piaInit_readWatch_keyed cfg
  writeWatch := piaInit_writeWatch_keyed cfg
  readHome p hp g hg := by
    obtain ⟨a, hk, hv⟩ := entry_of_mem (piaInit_readWatch_keyed cfg) hp
    rw [hv.trans (piaInit_read cfg a)] at hg
    rw [hk]
    split at hg
    · next ha =>
      obtain rfl : g = .kbdRead := by simpa using hg
      exact beq_iff_eq.2 (congrArg BitVec.toNat ha)
    · cases hg
  writeHome p hp g hg := by
    obtain ⟨a, hk, hv⟩ := entry_of_mem (piaInit_writeWatch_keyed cfg) hp
    rw [hv.trans (piaInit_write cfg a)] at hg
    rw [hk]
    split_ifs at hg with h1 h2 h3
    · obtain rfl : g = .kbdcrWrite := by simpa using hg
      exact beq_iff_eq.2 (congrArg BitVec.toNat h1)
    · obtain rfl : g = .dspWrite := by simpa using hg
      exact beq_iff_eq.2 (congrArg BitVec.toNat h2)
    · obtain rfl : g = .dspcrWrite := by simpa using hg
      exact beq_iff_eq.2 (congrArg BitVec.toNat h3)
    · cases hg
  kbdFirst := by
    show ((piaInit (beforePia cfg)).watchers .read cfg.piaBase).head? = _
    simp [piaInit_read]
  kbdcrFirst := by
    show ((piaInit (beforePia cfg)).watchers .write (cfg.piaBase + 1)).head? = _
    simp [piaInit_write]
  dspFirst := by
    show ((piaInit (beforePia cfg)).watchers .write (cfg.piaBase + 2)).head? = _
    simp [piaInit_write]
  dspcrFirst := by
    show ((piaInit (beforePia cfg)).watchers .write (cfg.piaBase + 3)).head? = _
    simp [piaInit_write]
  written := nofun

/-- Settles O52: `construct` refuses the sizes R85 refuses, and otherwise answers the PIA's registrations over `beforePia`. -/
theorem constructionState : Obligations.ConstructionState := by
  intro cfg
  refine ⟨fun hsize => construct_of_not_wf ?_, fun hlo hhi => ?_⟩
  · rw [Bool.eq_false_iff, ne_eq, config_wf_iff]
    omega
  · have hwf : cfg.wf = true := (config_wf_iff cfg).2 ⟨hlo, hhi⟩
    exact ⟨_, construct_of_wf hwf, rfl, rfl, rfl, rfl, rfl, rfl, rfl, piaInit_read cfg, piaInit_write cfg, rfl,
      piaInit_inv hwf⟩

/-- Settles O38: the state right after reset is one concrete state. -/
theorem invHoldsAtReset : Obligations.InvHoldsAtReset :=
  ⟨by constructor <;> decide, rfl⟩

end Sys2Proof.Machine
end

section
/-! SUPPORT. The family of 20_memory.md, first part: the array behind the bus, and the host's own accesses to it. Where no
handler runs, an access is its array access; bulk transfers run none; the host's reads and writes of a stopped machine are
the dispatched ones. -/

namespace Sys2Proof.Machine

/-- Settles O36: `SameCpu` holds across every access. -/
theorem busAccessesSpareTheCpu : Obligations.BusAccessesSpareTheCpu := by
  intro s a v t ht
  have h : SameCpu s t := by
    rcases ht with rfl | rfl
    · exact afterRead_sameCpu s a
    · exact memWrite_sameCpu s a v
  exact ⟨h.a, h.x, h.y, h.sp, h.pc, h.flags, h.cycles, h.suppress, h.cfg, h.written⟩

/-- Settles O54: each of the two resets writes one field. -/
theorem busAndPiaResets : Obligations.BusAndPiaResets := fun _ _ => ⟨rfl, rfl, rfl, rfl, rfl⟩

/-- Settles O59: the lists after a registration are those `watchers_addReadWatch` and `watchers_addWriteWatch` give. -/
theorem watchRegistrationAppends : Obligations.WatchRegistrationAppends := by
  intro s a k h dir
  have happend : ∀ (p : Prop) [Decidable p] (l : List Handler),
      (if p then l ++ [.ext h] else l) = l ++ (if p then [.ext h] else []) := fun p _ l => by split <;> simp
  exact ⟨(watchers_addReadWatch s a k (.ext h) dir).trans (happend _ _),
    (watchers_addWriteWatch s a k (.ext h) dir).trans (happend _ _), rfl, rfl⟩

/-- Settles O45: a quiet write is the array write, after which `peek_poke` says what every address reads. -/
theorem writeThenReadAliases : Obligations.WriteThenReadAliases := by
  intro s a k v
  refine ⟨afterRead_of_quiet, fun h => ?_⟩
  rw [memWrite_of_quiet v h]
  exact ⟨peek_poke s a k v, rfl⟩

/-! Accesses under suppression (20_memory.md R76). -/

theorem afterRead_under_suppression (s : State) (a : Word) : (s.setSuppress true).afterRead a = s.setSuppress true :=
  afterRead_of_quiet (.inl rfl)

theorem memWrite_under_suppression (s : State) (a : Word) (v : Byte) :
    (s.setSuppress true).memWrite a v = (s.poke a v).setSuppress true :=
  memWrite_of_quiet v (.inl rfl)

theorem pokeAll_suppress (l : List (Word × Option Byte)) (s : State) : (pokeAll l s).suppress = s.suppress := by
  induction l generalizing s with
  | nil => rfl
  | cons p l ih =>
    obtain ⟨a, _ | v⟩ := p
    · exact ih s
    · exact ih (s.poke a v)

theorem runAccesses_under_suppression (l : List (Word × Option Byte)) (s : State) :
    runAccesses l (s.setSuppress true) = (pokeAll l s).setSuppress true := by
  induction l generalizing s with
  | nil => rfl
  | cons p l ih =>
    obtain ⟨a, _ | v⟩ := p
    · rw [runAccesses, afterRead_under_suppression, ih]
      rfl
    · rw [runAccesses, memWrite_under_suppression, ih]
      rfl

theorem readPair_under_suppression (s : State) (lo hi : Word) :
    ((s.setSuppress true).readPair lo hi).2 = s.setSuppress true := by
  show ((s.setSuppress true).afterRead lo).afterRead hi = _
  rw [afterRead_under_suppression, afterRead_under_suppression]

/-- Array writes leave `running` and suppression alone. -/
theorem writesAlone_running_suppress (c : HostCommand) (s : State) :
    (c.writesAlone s).running = s.running ∧ (c.writesAlone s).suppress = s.suppress := by
  induction c generalizing s with
  | seq c d ihc ihd => exact ⟨(ihd _).1.trans (ihc s).1, (ihd _).2.trans (ihc s).2⟩
  | _ => exact ⟨rfl, rfl⟩

theorem directAccess_of_stopped {s : State} (h : s.running = false) (access : State → HostReply × State) :
    directAccess access s = access s := if_neg (by simp [h])

theorem directAccess_under_suppression {s : State} (h : s.running = false) (access : State → HostReply × State) :
    (directAccess access (s.setSuppress true)).2 = (access (s.setSuppress true)).2 :=
  congrArg Prod.snd (directAccess_of_stopped (s := s.setSuppress true) h access)

/-- Host accesses of a stopped machine under suppression are their array writes. -/
theorem command_under_suppression {c : HostCommand} (hc : c.isAccess = true) {s : State} (hs : s.running = false) :
    (command c (s.setSuppress true)).2 = (c.writesAlone s).setSuppress true := by
  induction c generalizing s with
  | readByte a => exact (directAccess_under_suppression hs _).trans (afterRead_under_suppression s a)
  | writeByte a v => exact (directAccess_under_suppression hs _).trans (memWrite_under_suppression s a v)
  | readShort a => exact (directAccess_under_suppression hs _).trans (readPair_under_suppression s a (a + 1))
  | readShortZeroPage z => exact (directAccess_under_suppression hs _).trans (readPair_under_suppression s (zext z) (zext (z + 1)))
  | seq c d ihc ihd =>
    obtain ⟨hcc, hcd⟩ := Bool.and_eq_true_iff.1 hc
    rw [command, ihc hcc hs]
    exact ihd hcd ((writesAlone_running_suppress c s).1.trans hs)
  | _ => cases hc

/-- Settles O46: under suppression only the array writes are left, and the flag they kept is put back. -/
theorem suppressedAccessesRunNoHandler : Obligations.SuppressedAccessesRunNoHandler := by
  refine ⟨fun s l => ?_, fun s c hc hs => ?_, fun _ _ => rfl⟩
  · rw [State.suppressed, runAccesses_under_suppression, ← pokeAll_suppress l s]
    rfl
  · rw [command, command_under_suppression hc hs, ← (writesAlone_running_suppress c s).2]
    rfl

/-! Bulk transfers (20_memory.md R83, R84). -/

theorem lookupAt_storeBytes_outside {k : Nat} {bytes : List Byte} {m : List Host.Cell} {j : Nat}
    (h : j < k ∨ k + bytes.length ≤ j) : lookupAt 0 (storeBytes k bytes m) j = lookupAt 0 m j := by
  induction bytes generalizing k m with
  | nil => rfl
  | cons b bytes ih =>
    rw [List.length_cons] at h
    rw [storeBytes, ih (by omega), lookupAt_updateAt, if_neg (by omega)]

theorem lookupAt_storeBytes_inside {k : Nat} {bytes : List Byte} {m : List Host.Cell} {j : Nat} (h : j < bytes.length) :
    lookupAt 0 (storeBytes k bytes m) (k + j) = bytes[j] := by
  induction bytes generalizing k m j with
  | nil => cases h
  | cons b bytes ih =>
    rw [storeBytes]
    cases j with
    | zero => rw [lookupAt_storeBytes_outside (.inl (by omega)), lookupAt_updateAt]; exact if_pos rfl
    | succ j =>
      rw [show k + (j + 1) = k + 1 + j by omega]
      exact ih (Nat.lt_of_succ_lt_succ h)

section bulk
variable {s : State} (hs : s.running = false)
include hs

theorem command_loadBulk_of_stopped (bytes : List Byte) (start : Word) :
    command (.loadBulk bytes start) s =
      if start.toNat + bytes.length > s.cfg.memSize then (.error .outOfRange, s)
      else (.done, s.setMem (storeBytes start.toNat bytes s.mem)) := by
  rw [command, directAccess_of_stopped hs, loadBulk]
  by_cases h : start.toNat + bytes.length > s.cfg.memSize
  · rw [if_pos h, if_pos h]
  · rw [if_neg h, if_neg h]

theorem command_dumpRange_of_stopped (first last : Word) :
    command (.dumpRange first last) s =
      if last.toNat ≥ s.cfg.memSize ∨ last.toNat < first.toNat then (.error .outOfRange, s)
      else (.bytes ((List.range' first.toNat (last.toNat - first.toNat + 1)).map (lookupAt 0 s.mem)), s) := by
  rw [command, directAccess_of_stopped hs, dumpRange]
  by_cases h : last.toNat ≥ s.cfg.memSize ∨ last.toNat < first.toNat
  · rw [if_pos h, if_pos h]
  · rw [if_neg h, if_neg h]

/-- The bytes just loaded are the bytes a dump of their range returns. -/
theorem dumpRange_loaded {bytes : List Byte} {start last : Word} (hfit : start.toNat + bytes.length ≤ s.cfg.memSize)
    (hlast : last.toNat + 1 = start.toNat + bytes.length) (hle : start.toNat ≤ last.toNat) :
    command (.dumpRange start last) (s.setMem (storeBytes start.toNat bytes s.mem)) =
      (.bytes bytes, s.setMem (storeBytes start.toNat bytes s.mem)) := by
  have hdump : (List.range' start.toNat (last.toNat - start.toNat + 1)).map
      (lookupAt 0 (storeBytes start.toNat bytes s.mem)) = bytes := by
    refine List.ext_getElem (by simp only [List.length_map, List.length_range']; omega) fun j _ hj => ?_
    rw [List.getElem_map, List.getElem_range', Nat.one_mul]
    exact lookupAt_storeBytes_inside hj
  rw [command_dumpRange_of_stopped (s := s.setMem (storeBytes start.toNat bytes s.mem)) hs,
    if_neg (by simp only [setMem_cfg]; omega), setMem_mem, hdump]

end bulk

/-- Settles O51: a transfer succeeds exactly inside the array, and `storeBytes` writes its range alone. -/
theorem bulkTransfers : Obligations.BulkTransfers := by
  intro s bytes start hs
  refine ⟨fun hbig => ?_, fun hfit => ⟨storeBytes start.toNat bytes s.mem, ?_, fun j hj => lookupAt_storeBytes_inside hj,
    fun k hk => lookupAt_storeBytes_outside hk, fun last hlast hle => dumpRange_loaded hs hfit hlast hle⟩,
    fun last => ⟨fun hout => ?_, fun hle hlt => ?_⟩⟩
  · rw [command_loadBulk_of_stopped hs, if_pos hbig]
  · rw [command_loadBulk_of_stopped hs, if_neg (by omega)]
  · rw [command_dumpRange_of_stopped hs, if_pos hout]
  · rw [command_dumpRange_of_stopped hs, if_neg (by omega)]
    refine ⟨_, rfl, by simp only [List.length_map, List.length_range']; omega, fun j hj => ?_⟩
    simp

/-! Host reads and writes (20_memory.md R82), their words and addresses as numbers. -/

theorem joinBytes_eq_ofNat (hi lo : Byte) : joinBytes hi lo = BitVec.ofNat 16 (hi.toNat * 256 + lo.toNat) := by
  rw [← joinBytes_toNat, BitVec.ofNat_toNat, BitVec.setWidth_eq]

theorem zext_eq_ofNat (b : Byte) : zext b = BitVec.ofNat 16 b.toNat := by
  rw [← zext_toNat, BitVec.ofNat_toNat, BitVec.setWidth_eq]

/-- The address after a word (20_memory.md R74). -/
theorem word_succ_eq_ofNat (a : Word) : a + 1 = BitVec.ofNat 16 ((a.toNat + 1) % 65536) := by
  apply BitVec.eq_of_toNat_eq
  simp

/-- The next zero-page address (20_memory.md R75). -/
theorem zext_succ_eq_ofNat (z : Byte) : zext (z + 1) = BitVec.ofNat 16 ((z.toNat + 1) % 256) := by
  rw [zext_eq_ofNat, BitVec.toNat_add]
  rfl

theorem readPair_eq (s : State) (lo hi : Word) :
    s.readPair lo hi = (BitVec.ofNat 16 (((s.afterRead lo).peek hi).toNat * 256 + (s.peek lo).toNat),
      (s.afterRead lo).afterRead hi) :=
  Prod.ext (joinBytes_eq_ofNat _ _) rfl

/-- Settles O60: a direct access of a stopped machine is the dispatched access. -/
theorem hostReadsWhileStopped : Obligations.HostReadsWhileStopped := by
  intro s a z v hs
  refine ⟨directAccess_of_stopped hs _, directAccess_of_stopped hs _, ?_, ?_⟩
  · rw [command, directAccess_of_stopped hs, State.readShort, readPair_eq, word_succ_eq_ofNat]
  · rw [command, directAccess_of_stopped hs, State.readShortZeroPage, readPair_eq, zext_succ_eq_ofNat, zext_eq_ofNat]

end Sys2Proof.Machine
end

section
/-! SUPPORT. The family of 20_memory.md, second part: the dispatch of R78 as one equation. A run of handlers that returns uses
finitely many nested dispatches, so one depth is enough for all of them (`∀ᶠ`); hence a dispatch that returns is the run of
its handlers one after another, their own accesses dispatched in turn. -/

namespace Sys2Proof.Machine

section enough
variable {v : Byte}

/-- Where a dispatch returns, every depth from some one on is enough. -/
theorem eventually_dispatch_eq {dir : Dir} {a : Word} {s : State} (h : (runHandlers dir a v s).diverged = false) :
    ∀ᶠ depth in Filter.atTop, dispatch depth dir a v s = runHandlers dir a v s := by
  rcases runHandlers_cases dir a v s with ⟨hs, he⟩ | ⟨depth, -, hd, he⟩ | ⟨-, -, he⟩ <;> rw [he] at h ⊢
  · rw [hs] at h; cases h
  · exact Filter.eventually_atTop.2 ⟨depth, fun depth' hle => dispatch_mono hle dir a v s hd⟩
  · cases h

/-- Two parts of a run one after the other: depths enough for each are enough for both. -/
theorem eventually_comp_eq {first : Nat → State} {t u : State} (second : Nat → State → State)
    (h : ∀ᶠ depth in Filter.atTop, first depth = t) (k : ∀ᶠ depth in Filter.atTop, second depth t = u) :
    ∀ᶠ depth in Filter.atTop, second depth (first depth) = u :=
  h.mp (k.mono fun _ hk ht => ht ▸ hk)

theorem eventually_afterAccess_eq {dir : Dir} {a : Word} {s : State}
    (h : (afterAccess runHandlers dir a v s).diverged = false) :
    ∀ᶠ depth in Filter.atTop, afterAccess (dispatch depth) dir a v s = afterAccess runHandlers dir a v s := by
  unfold afterAccess at h ⊢
  split
  · exact .of_forall fun _ => rfl
  · next hs => exact eventually_dispatch_eq (by rwa [if_neg hs] at h)

theorem runProg_keeps_diverged (p : HandlerProg) (s : State) (h : s.diverged = true) :
    (runProg runHandlers v p s).diverged = true :=
  runProg_closed diverged_closed (runHandlers_closed diverged_closed) v p s h

theorem eventually_runProg_eq (p : HandlerProg) {s : State} (h : (runProg runHandlers v p s).diverged = false) :
    ∀ᶠ depth in Filter.atTop, runProg (dispatch depth) v p s = runProg runHandlers v p s := by
  induction p generalizing s with
  | done => exact .of_forall fun _ => rfl
  | stop rest ih => exact ih h
  | memRead a rest ih =>
    exact eventually_comp_eq (fun depth => runProg (dispatch depth) v rest)
      (eventually_afterAccess_eq (not_diverged_of (runProg_keeps_diverged rest _) h)) (ih h)
  | memWrite a e rest ih =>
    exact eventually_comp_eq (fun depth => runProg (dispatch depth) v rest)
      (eventually_afterAccess_eq (not_diverged_of (runProg_keeps_diverged rest _) h)) (ih h)
  | suppressed body rest ihb ihr =>
    have hbody : (runProg runHandlers v body (s.setSuppress true)).diverged = false :=
      not_diverged_of (runProg_keeps_diverged rest (State.setSuppress s.suppress _)) h
    exact eventually_comp_eq (fun depth => runProg (dispatch depth) v rest)
      ((ihb hbody).mono fun _ hb => congrArg (State.setSuppress s.suppress) hb) (ihr h)
  | addReadWatch a n rest ih => exact ih h
  | addWriteWatch a n rest ih => exact ih h
  | refusedCall c rest ih => exact ih h

theorem eventually_invoke_eq {dir : Dir} {a : Word} {s : State} {g : Handler}
    (h : (invoke runHandlers dir a v s g).diverged = false) :
    ∀ᶠ depth in Filter.atTop, invoke (dispatch depth) dir a v s g = invoke runHandlers dir a v s g := by
  cases g with
  | ext n => exact eventually_runProg_eq _ h
  | kbdRead | kbdcrWrite | dspWrite | dspcrWrite => exact .of_forall fun _ => rfl

theorem eventually_foldl_invoke_eq {dir : Dir} {a : Word} (hs : List Handler) {s : State}
    (h : (hs.foldl (invoke runHandlers dir a v) s).diverged = false) :
    ∀ᶠ depth in Filter.atTop, hs.foldl (invoke (dispatch depth) dir a v) s = hs.foldl (invoke runHandlers dir a v) s := by
  induction hs generalizing s with
  | nil => exact .of_forall fun _ => rfl
  | cons g hs ih =>
    have hkeeps := foldl_closed diverged_closed
      (invoke_closed diverged_closed (runHandlers_closed diverged_closed) dir a v) hs (invoke runHandlers dir a v s g)
    exact eventually_comp_eq (fun depth => hs.foldl (invoke (dispatch depth) dir a v))
      (eventually_invoke_eq (not_diverged_of hkeeps h)) (ih h)

end enough

/-- A dispatch that returns, or the run of whose handlers does, is that run (20_memory.md R78). -/
theorem runHandlers_eq_foldl {dir : Dir} {a : Word} {v : Byte} {s : State}
    (h : (runHandlers dir a v s).diverged = false ∨
      ((s.watchers dir a).foldl (invoke runHandlers dir a v) s).diverged = false) :
    runHandlers dir a v s = (s.watchers dir a).foldl (invoke runHandlers dir a v) s := by
  rcases h with h | h
  · obtain ⟨depth, hd⟩ := ((Filter.tendsto_add_atTop_nat 1).eventually (eventually_dispatch_eq h)).exists
    rw [← hd] at h ⊢
    exact (foldl_invoke_refines (dispatch_closed diverged_closed depth) (dispatch_refines_runHandlers depth) dir a v _ s h).symm
  · obtain ⟨depth, hd⟩ := (eventually_foldl_invoke_eq _ h).exists
    rw [← hd] at h ⊢
    exact dispatch_refines_runHandlers (depth + 1) dir a v s h

/-- An access never returns only where no depth is enough (log entry 5). -/
theorem runHandlers_diverged_iff (dir : Dir) (a : Word) (v : Byte) (s : State) :
    (runHandlers dir a v s).diverged = true ↔ ∀ depth, (dispatch depth dir a v s).diverged = true := by
  constructor
  · intro h depth
    by_contra hd
    rw [Bool.not_eq_true] at hd
    rw [dispatch_refines_runHandlers depth dir a v s hd, hd] at h
    cases h
  · intro h
    by_contra hr
    obtain ⟨depth, hd⟩ := (eventually_dispatch_eq (Bool.not_eq_true _ ▸ hr)).exists
    exact hr (hd ▸ h depth)

/-! Record-only handlers (20_memory.md R79). -/

theorem foldl_invoke_ext_of_recordOnly (disp : Dir → Word → Byte → State → State) (dir : Dir) (a : Word) (v : Byte)
    (ids : List Nat) {s : State} (h : s.cfg.extHandler = []) :
    (ids.map Handler.ext).foldl (invoke disp dir a v) s =
      { s with trace := s.trace ++ ids.map fun h => .watchFired h dir a v } := by
  induction ids generalizing s with
  | nil => simp
  | cons n ids ih =>
    rw [List.map_cons, List.foldl_cons, invoke_ext_of_recordOnly disp dir a v h,
      ih (s := s.emit (.watchFired n dir a v)) h]
    simp [State.emit]

theorem runHandlers_ext_of_recordOnly {dir : Dir} {a : Word} {ids : List Nat} {s : State} (v : Byte) (h : s.RecordOnly)
    (hw : s.watchers dir a = ids.map Handler.ext) :
    runHandlers dir a v s = { s with trace := s.trace ++ ids.map fun h => .watchFired h dir a v } := by
  rw [runHandlers_of_calm dir a v ⟨h.1, by rw [h.2]; rfl⟩, hw, foldl_invoke_ext_of_recordOnly _ _ _ _ _ h.2]

theorem afterAccess_of_not_suppressed {disp : Dir → Word → Byte → State → State} {s : State} (h : s.suppress = false)
    (dir : Dir) (a : Word) (v : Byte) : afterAccess disp dir a v s = disp dir a v s := if_neg (by simp [h])

/-- Settles O47: the dispatch is the run of its handlers, and each action of a handler is one line of `runProg`. -/
theorem handlersFireOnceInOrder : Obligations.HandlersFireOnceInOrder := by
  have hread {s : State} (hs : s.suppress = false) (a : Word) :
      s.memRead a = (s.peek a, runHandlers .read a (s.peek a) s) :=
    congrArg (Prod.mk _) (afterAccess_of_not_suppressed hs ..)
  have hwrite {s : State} (hs : s.suppress = false) (a : Word) (v : Byte) :
      s.memWrite a v = runHandlers .write a v (s.poke a v) := afterAccess_of_not_suppressed (s := s.poke a v) hs ..
  refine ⟨fun s a v hs => ⟨hread hs a, hwrite hs a v⟩,
    fun dir a v s => ⟨runHandlers_eq_foldl, runHandlers_diverged_iff dir a v s⟩,
    fun _ _ _ _ _ _ _ _ _ _ _ => ⟨rfl, rfl, rfl, rfl, rfl, rfl, rfl, rfl, rfl⟩,
    fun s a v ids hrec hs => ⟨fun hw => ?_, fun hw => ?_⟩⟩
  · rw [hread hs, runHandlers_ext_of_recordOnly _ hrec hw]
  · rw [hwrite hs, runHandlers_ext_of_recordOnly (dir := .write) (s := s.poke a v) v hrec hw]
    rfl

end Sys2Proof.Machine
end

section
/-! SUPPORT. The family of 20_memory.md, third part: which bytes an instruction can change. An instruction is made of bus
reads, bus writes at `storedAddrs` and writes of CPU registers, so a relation those keep holds between the states before and
after it (`StoreClosed`). -/

namespace Sys2Proof.Machine

/-- A relation kept by bus reads, by bus writes at the given addresses, by writes of CPU registers and by the fault of BRK and
RTI without `ENABLE_BRK_RTI`. -/
structure StoreClosed (stored : List Word) (R : State → State → Prop) : Prop where
  trans : ∀ {s t u}, R s t → R t u → R s u
  read : ∀ s a, R s (s.afterRead a)
  write : ∀ s, ∀ a ∈ stored, ∀ v, R s (s.memWrite a v)
  cpu : ∀ s c, R s (s.setCpu c)
  fault : ∀ s op pc0, R s (raiseUnimplemented op pc0 s)

section closed
variable {stored : List Word} {R : State → State → Prop} (hR : StoreClosed stored R)
include hR

/-- A state that differs from another in CPU registers alone. -/
theorem registers_storeClosed {s t : State} (h : t = s.setCpu t.cpu) : R s t := h ▸ hR.cpu s t.cpu

theorem readPair_storeClosed (s : State) (lo hi : Word) : R s (s.readPair lo hi).2 :=
  hR.trans (hR.read s lo) (hR.read _ hi)

theorem effectiveAddress_storeClosed (m : MemMode) (s : State) : R s (effectiveAddress m s).2 := by
  cases m with
  | indx z => exact readPair_storeClosed hR s _ _
  | indy z => exact readPair_storeClosed hR s _ _
  | zp | zpx | zpy | abs | absx | absy => exact hR.cpu s s.cpu

theorem operandValue_storeClosed {o : Operand} {s s1 : State} {m : Byte} (h : operandValue o s = some (m, s1)) : R s s1 := by
  cases o with
  | imm v => obtain ⟨rfl, rfl⟩ := Prod.mk.inj (Option.some.inj h); exact hR.cpu s s.cpu
  | acc => obtain ⟨rfl, rfl⟩ := Prod.mk.inj (Option.some.inj h); exact hR.cpu s s.cpu
  | mem md =>
    obtain ⟨-, rfl⟩ := Prod.mk.inj (Option.some.inj h)
    exact hR.trans (effectiveAddress_storeClosed hR md s) (hR.read _ _)
  | imp | ind | rel => cases h

theorem valueEffect_storeClosed {mn : Mnemonic} {eff : Byte → State → State} (h : valueEffect mn = some eff) (m : Byte)
    (s : State) : R s (eff m s) :=
  registers_storeClosed hR (by cases mn <;> cases h <;> rfl)

theorem storeMem_storeClosed {m : MemMode} {s : State} (h : (effectiveAddress m s).1 ∈ stored) (reg : State → Byte) :
    R s (storeMem m reg s) :=
  hR.trans (effectiveAddress_storeClosed hR m s) (hR.write _ _ h _)

theorem modifyMem_storeClosed {m : MemMode} {s : State} (h : (effectiveAddress m s).1 ∈ stored)
    (alu : Byte → Flags → Byte × Flags) : R s (modifyMem m alu s) :=
  hR.trans (effectiveAddress_storeClosed hR m s)
    (hR.trans (hR.read _ _) (hR.trans (hR.write _ _ h _) (registers_storeClosed hR rfl)))

theorem push_storeClosed {s : State} (h : stackAddr s.sp ∈ stored) (v : Byte) : R s (push v s) :=
  hR.trans (hR.write _ _ h v) (registers_storeClosed hR rfl)

theorem pull_storeClosed (s : State) : R s (pull s).2 :=
  hR.trans (registers_storeClosed hR rfl) (hR.read (s.setSp (s.sp + 1)) _)

theorem pushWord_storeClosed {s : State} (h1 : stackAddr s.sp ∈ stored) (h2 : stackAddr (s.sp - 1) ∈ stored) (w : Word) :
    R s (pushWord w s) := by
  rw [pushWord_eq]
  exact hR.trans (hR.write _ _ h1 _) (hR.trans (hR.write _ _ h2 _) (registers_storeClosed hR rfl))

theorem pullWord_storeClosed (s : State) : R s (pullWord s).2 :=
  hR.trans (pull_storeClosed hR s) (pull_storeClosed hR _)

theorem onRel_storeClosed (cond : Flags → Bool) (o : Operand) (s : State) : R s (onRel cond o s) := by
  refine registers_storeClosed hR ?_
  cases o with
  | rel d =>
    simp only [onRel, branch]
    split <;> rfl
  | imp | acc | imm | mem | ind => rfl

theorem jumpTo_storeClosed (o : Operand) (s : State) : R s (jumpTo o s) := by
  unfold jumpTo
  split
  · exact registers_storeClosed hR rfl
  · exact hR.trans (readPair_storeClosed hR s _ _) (registers_storeClosed hR rfl)
  · exact hR.cpu s s.cpu

theorem callTo_storeClosed {s : State} (h1 : stackAddr s.sp ∈ stored) (h2 : stackAddr (s.sp - 1) ∈ stored) (o : Operand) :
    R s (callTo o s) := by
  unfold callTo
  split
  · exact hR.trans (pushWord_storeClosed hR h1 h2 _) (registers_storeClosed hR rfl)
  · exact hR.cpu s s.cpu

theorem enterBreak_storeClosed {s : State} (h1 : stackAddr s.sp ∈ stored) (h2 : stackAddr (s.sp - 1) ∈ stored)
    (h3 : stackAddr (s.sp - 1 - 1) ∈ stored) : R s (enterBreak s) := by
  rw [enterBreak_eq]
  exact hR.trans (hR.write _ _ h1 _) (hR.trans (hR.write _ _ h2 _) (hR.trans (hR.write _ _ h3 _)
    (hR.trans (hR.read _ _) (hR.trans (hR.read _ _) (registers_storeClosed hR rfl)))))

theorem returnFromBreak_storeClosed (s : State) : R s (returnFromBreak s) :=
  hR.trans (pull_storeClosed hR s) (hR.trans (registers_storeClosed hR rfl)
    (hR.trans (pullWord_storeClosed hR _) (registers_storeClosed hR rfl)))

theorem complete_storeClosed {op : Byte} {s t u : State} (h : R s t) (hf : complete op t = .next u) : R s u :=
  (complete_eq_next hf).1 ▸ hR.trans h (registers_storeClosed hR rfl)

theorem brkRti_storeClosed {op : Byte} {effect : State → State} {s t : State}
    (heff : s.cfg.enableBrkRti = true → R s (effect s)) (h : brkRti op effect s = .next t) : R s t := by
  unfold brkRti at h
  split at h
  · next hb => exact complete_storeClosed hR (heff hb) h
  · exact (finish_eq_next h).1 ▸ hR.fault s _ _

end closed

/-! The addresses an instruction stores to, by its shape. -/

theorem storedAddrs_of_store {i : Instr} {reg : State → Byte} (h : storedRegister i.mnemonic = some reg) {m : MemMode}
    (ho : i.operand = .mem m) (s : State) : storedAddrs i s = [(effectiveAddress m s).1] := by
  unfold storedAddrs
  rw [ho]
  revert h
  cases i.mnemonic <;> intro h <;> cases h <;> rfl

theorem storedAddrs_of_modify {i : Instr} {alu : Byte → Flags → Byte × Flags} (h : modifyAlu i.mnemonic = some alu)
    {m : MemMode} (ho : i.operand = .mem m) (s : State) : storedAddrs i s = [(effectiveAddress m s).1] := by
  unfold storedAddrs
  rw [ho]
  revert h
  cases i.mnemonic <;> intro h <;> cases h <;> rfl

theorem storedAddrs_of_push {i : Instr} (h : i.mnemonic = .pha ∨ i.mnemonic = .php) (s : State) :
    storedAddrs i s = [stackAddr s.sp] := by
  unfold storedAddrs
  rcases h with h | h <;> rw [h]

theorem storedAddrs_of_jsr {i : Instr} (h : i.mnemonic = .jsr) (s : State) :
    storedAddrs i s = [stackAddr s.sp, stackAddr (s.sp - 1)] := by
  unfold storedAddrs
  rw [h]

theorem storedAddrs_brk {s : State} (h : s.cfg.enableBrkRti = true) :
    storedAddrs .brk s = [stackAddr s.sp, stackAddr (s.sp - 1), stackAddr (s.sp - 1 - 1)] := by
  rw [show s.sp - 1 - 1 = s.sp - 2 by bv_omega]
  exact if_pos h

theorem plainEffect_storeClosed {i : Instr} {s : State} {R : State → State → Prop} (hR : StoreClosed (storedAddrs i s) R)
    {eff : Operand → State → State} (h : plainEffect i.mnemonic = some eff) : R s (eff i.operand s) := by
  have hpush : i.mnemonic = .pha ∨ i.mnemonic = .php → stackAddr s.sp ∈ storedAddrs i s := fun hm => by
    simp [storedAddrs_of_push hm]
  have hcall : i.mnemonic = .jsr → stackAddr s.sp ∈ storedAddrs i s ∧ stackAddr (s.sp - 1) ∈ storedAddrs i s :=
    fun hm => by simp [storedAddrs_of_jsr hm]
  revert h hpush hcall
  generalize i.operand = o
  cases i.mnemonic <;> intro h hpush hcall <;> cases h
  case pha => exact push_storeClosed hR (hpush (.inl rfl)) _
  case php => exact push_storeClosed hR (hpush (.inr rfl)) _
  case pla | plp => exact hR.trans (pull_storeClosed hR s) (registers_storeClosed hR rfl)
  case jmp => exact jumpTo_storeClosed hR o s
  case jsr => exact callTo_storeClosed hR (hcall rfl).1 (hcall rfl).2 o
  case rts => exact hR.trans (pullWord_storeClosed hR s) (registers_storeClosed hR rfl)
  case bpl | bmi | bvc | bvs | bcc | bcs | bne | beq => exact onRel_storeClosed hR _ o s
  all_goals exact registers_storeClosed hR rfl

/-- Such a relation holds between the states before and after an instruction that stores to those addresses. -/
theorem exec_storeClosed {i : Instr} {s t : State} {R : State → State → Prop} (hR : StoreClosed (storedAddrs i s) R)
    (h : exec i s = .next t) : R s t := by
  rcases instr_shape i with ⟨eff, he⟩ | ⟨reg, he⟩ | ⟨alu, he⟩ | ⟨eff, he⟩ | rfl | rfl
  · obtain ⟨m, s1, ho, hs⟩ := exec_value he s
    exact complete_storeClosed hR
      (hR.trans (operandValue_storeClosed hR ho) (valueEffect_storeClosed hR he m s1)) (hs ▸ h)
  · obtain ⟨m, ho, hs⟩ := exec_store he s
    have hm : (effectiveAddress m s).1 ∈ storedAddrs i s := by simp [storedAddrs_of_store he ho]
    exact complete_storeClosed hR (storeMem_storeClosed hR hm reg) (hs ▸ h)
  · rcases exec_modify he s with ⟨-, hs⟩ | ⟨m, ho, hs⟩
    · exact complete_storeClosed hR (registers_storeClosed hR rfl) (hs ▸ h)
    · have hm : (effectiveAddress m s).1 ∈ storedAddrs i s := by simp [storedAddrs_of_modify he ho]
      exact complete_storeClosed hR (modifyMem_storeClosed hR hm alu) (hs ▸ h)
  · exact complete_storeClosed hR (plainEffect_storeClosed hR he) (exec_plain he s ▸ h)
  · refine brkRti_storeClosed hR (fun hb => ?_) h
    have hstored := storedAddrs_brk hb
    exact enterBreak_storeClosed hR (by simp [hstored]) (by simp [hstored]) (by simp [hstored])
  · exact brkRti_storeClosed hR (fun _ => returnFromBreak_storeClosed hR s) h

/-! Where host handlers only record. -/

/-- Under the parameters of `s0`, the byte at `k` is the same in both states. -/
def SameByteUnder (s0 : State) (k : Word) (s t : State) : Prop :=
  s.cfg = s0.cfg → t.cfg = s0.cfg ∧ t.peek k = s.peek k

/-- No access but a write of a stored address, and no PIA handler, writes any other byte than KBDCR and DSP. -/
theorem sameByteUnder_storeClosed {s0 : State} (h : s0.cfg.extHandler = []) {k : Word} {stored : List Word}
    (hstored : ∀ a ∈ stored, s0.index k ≠ s0.index a) (hk : s0.index k ≠ s0.index s0.kbdcr)
    (hd : s0.index k ≠ s0.index s0.dsp) : StoreClosed stored (SameByteUnder s0 k) where
  trans hst htu hs := by
    obtain ⟨ht, hpt⟩ := hst hs
    obtain ⟨hu, hpu⟩ := htu ht
    exact ⟨hu, hpu.trans hpt⟩
  read s a hs := by
    refine ⟨(afterRead_cfg s a).trans hs, afterRead_peek_of_recordOnly (by rw [hs, h]) a ?_ ?_⟩ <;>
      simpa only [State.index, State.kbdcr, State.dsp, hs]
  write s a ha v hs := by
    have hka := hstored a ha
    refine ⟨(memWrite_cfg s a v).trans hs, memWrite_peek_of_recordOnly (by rw [hs, h]) a v ?_ ?_ ?_⟩ <;>
      simpa only [State.index, State.kbdcr, State.dsp, hs]
  cpu _ _ hs := ⟨hs, rfl⟩
  fault _ _ _ hs := ⟨hs, rfl⟩

/-- Settles O35: keeping the byte at `k` is closed under all an instruction does, its stores going to `storedAddrs`. -/
theorem memoryFrameRecordOnly : Obligations.MemoryFrameRecordOnly := fun _ _ _ hrec h _ hstored hk hd =>
  (exec_storeClosed (sameByteUnder_storeClosed hrec.2 hstored hk hd) h rfl).2

end Sys2Proof.Machine
end

section
/-! SUPPORT. The family of 30_encoding.md, first part: decoding and encoding are inverse to each other. A format makes an
instruction of its operand bytes (`Form.ofBytes`); what a row of the table makes has the opcode of the row and those operand
bytes, and every instruction is made by the row of its opcode; so a byte sequence decodes to a well-formed instruction
exactly where it starts with its encoding (`decode_eq_ok_iff`). -/

namespace Sys2Proof

/-- The instruction a format makes of operand bytes, if they are as many as the format takes (30_encoding.md R121). -/
def Form.ofBytes (f : Form) (bytes : List Byte) : Option Instr :=
  match f, bytes with
  | .f1 i, [] => some i
  | .f2 make, [b1] => some (make b1)
  | .f3 make, [lo, hi] => some (make (joinBytes hi lo))
  | _, _ => none

theorem withOperand_eq_ofBytes (f : Form) (o : Operand) : f.withOperand o = f.ofBytes o.bytes := rfl

/-- Decoding splits the bytes after the opcode into those its format takes and the rest. -/
theorem decode_cons_eq_ok_iff {e : Bool} {op : Byte} {bytes rest : List Byte} {i : Instr} :
    decode e (op :: bytes) = .ok (i, rest) ↔
      ∃ f operand, decodeOpcode e op = some f ∧ f.ofBytes operand = some i ∧ bytes = operand ++ rest := by
  constructor
  · intro h
    simp only [decode] at h
    split at h
    · cases h
    · next i' hf => cases h; exact ⟨_, [], hf, rfl, rfl⟩
    · next make hf =>
      split at h
      · next b1 _ => cases h; exact ⟨_, [b1], hf, rfl, rfl⟩
      · cases h
    · next make hf =>
      split at h
      · next lo hi _ => cases h; exact ⟨_, [lo, hi], hf, rfl, rfl⟩
      · cases h
  · rintro ⟨f, operand, hf, hi, rfl⟩
    unfold Form.ofBytes at hi
    split at hi <;> cases hi <;> simp [decode, hf]

/-! The rows of the table. -/

/-- A format applied to an operand byte or an operand word, with the operand bytes that stand for it. -/
def Form.applied (b : Byte) (w : Word) : Form → Instr × List Byte
  | .f1 i => (i, [])
  | .f2 make => (make b, [b])
  | .f3 make => (make w, [lowByte w, highByte w])

theorem applied_of_ofBytes {f : Form} {operand : List Byte} {i : Instr} (h : f.ofBytes operand = some i) :
    ∃ b w, f.applied b w = (i, operand) := by
  unfold Form.ofBytes at h
  split at h <;> cases h
  · exact ⟨0, 0, rfl⟩
  · next make b1 => exact ⟨b1, 0, rfl⟩
  · next make lo hi => exact ⟨0, joinBytes hi lo, by simp [Form.applied]⟩

/-- Whatever a row makes has the opcode of the row and the operand it was made of (30_encoding.md R127). -/
theorem opcodeTable_encodes (b : Byte) (w : Word) :
    opcodeTable.map (fun r => encode (r.form.applied b w).1) =
      opcodeTable.map (fun r => r.opcode :: (r.form.applied b w).2) := by
  simp only [opcodeTable, List.map_append]
  rfl

theorem rowOf_eq_some {op : Byte} {r : Row} (h : rowOf op = some r) : r ∈ opcodeTable ∧ r.opcode = op :=
  ⟨List.mem_of_find?_eq_some h, by simpa using List.find?_some h⟩

theorem encode_of_rowOf {op : Byte} {r : Row} (hr : rowOf op = some r) {operand : List Byte} {i : Instr}
    (hi : r.form.ofBytes operand = some i) : encode i = op :: operand := by
  obtain ⟨hmem, rfl⟩ := rowOf_eq_some hr
  obtain ⟨b, w, h⟩ := applied_of_ofBytes hi
  have hrow := List.map_inj_left.1 (opcodeTable_encodes b w) r hmem
  rwa [h] at hrow

open Laws.TableRow in
/-- Every instruction is what the row of its opcode makes of its operand (30_encoding.md R127). -/
theorem tableRow (i : Instr) : Laws.TableRow.Statement i := by
  cases i
  exacts [ldaImm _, ldaZp _, ldaZpx _, ldaAbs _, ldaAbsx _, ldaAbsy _, ldaIndx _, ldaIndy _, ldxImm _, ldxZp _,
    ldxZpy _, ldxAbs _, ldxAbsy _, ldyImm _, ldyZp _, ldyZpx _, ldyAbs _, ldyAbsx _, staZp _, staZpx _, staAbs _,
    staAbsx _, staAbsy _, staIndx _, staIndy _, stxZp _, stxZpy _, stxAbs _, styZp _, styZpx _, styAbs _, adcImm _,
    adcZp _, adcZpx _, adcAbs _, adcAbsx _, adcAbsy _, adcIndx _, adcIndy _, sbcImm _, sbcZp _, sbcZpx _, sbcAbs _,
    sbcAbsx _, sbcAbsy _, sbcIndx _, sbcIndy _, incZp _, incZpx _, incAbs _, incAbsx _, decZp _, decZpx _, decAbs _,
    decAbsx _, inx, iny, dex, dey, aslAcc, aslZp _, aslZpx _, aslAbs _, aslAbsx _, lsrAcc, lsrZp _, lsrZpx _,
    lsrAbs _, lsrAbsx _, rolAcc, rolZp _, rolZpx _, rolAbs _, rolAbsx _, rorAcc, rorZp _, rorZpx _, rorAbs _,
    rorAbsx _, andImm _, andZp _, andZpx _, andAbs _, andAbsx _, andAbsy _, andIndx _, andIndy _, oraImm _, oraZp _,
    oraZpx _, oraAbs _, oraAbsx _, oraAbsy _, oraIndx _, oraIndy _, eorImm _, eorZp _, eorZpx _, eorAbs _,
    eorAbsx _, eorAbsy _, eorIndx _, eorIndy _, cmpImm _, cmpZp _, cmpZpx _, cmpAbs _, cmpAbsx _, cmpAbsy _,
    cmpIndx _, cmpIndy _, cpxImm _, cpxZp _, cpxAbs _, cpyImm _, cpyZp _, cpyAbs _, bitZp _, bitAbs _, bpl _, bmi _,
    bvc _, bvs _, bcc _, bcs _, bne _, beq _, tax, txa, tay, tya, tsx, txs, pha, php, pla, plp, jmpAbs _, jmpInd _,
    jsr _, rts, sec, sed, sei, clc, cld, cli, clv, nop, brk, rti]

theorem row_of_instr (i : Instr) : ∃ r b w, rowOf i.opcode = some r ∧ (r.form.applied b w).1 = i := by
  obtain ⟨r, hr, hi⟩ := tableRow i
  rw [withOperand_eq_ofBytes] at hi
  obtain ⟨b, w, h⟩ := applied_of_ofBytes hi
  exact ⟨r, b, w, hr, by rw [h]⟩

/-! Decoding (30_encoding.md R131). -/

theorem decodeOpcode_eq_some_iff {e : Bool} {op : Byte} {f : Form} :
    decodeOpcode e op = some f ↔ (isBrkOrRti op = true → e = true) ∧ ∃ r, rowOf op = some r ∧ r.form = f := by
  unfold decodeOpcode
  split
  · next h => simp_all
  · next h => simpa using fun _ _ _ hop => by simpa [hop] using h

/-- Whatever the format of an opcode makes of operand bytes has that encoding. -/
theorem encode_of_decodeOpcode {e : Bool} {op : Byte} {f : Form} (hf : decodeOpcode e op = some f) {operand : List Byte}
    {i : Instr} (hi : f.ofBytes operand = some i) : encode i = op :: operand := by
  obtain ⟨-, r, hr, rfl⟩ := decodeOpcode_eq_some_iff.1 hf
  exact encode_of_rowOf hr hi

theorem isBrkOrRti_opcode (i : Instr) : isBrkOrRti i.opcode = decide (i = .brk ∨ i = .rti) := by
  cases i <;> rfl

/-- An instruction is well-formed where its opcode decodes (30_encoding.md R131). -/
theorem wf_iff_opcode {cfg : Config} {i : Instr} :
    i.wf cfg = true ↔ (isBrkOrRti i.opcode = true → cfg.enableBrkRti = true) := by
  rw [isBrkOrRti_opcode, decide_eq_true_eq, Instr.wf]
  split <;> simp_all

/-- The byte sequences that decode to an instruction are those that start with its encoding, where it is well-formed. -/
theorem decode_eq_ok_iff {cfg : Config} {bytes rest : List Byte} {i : Instr} :
    decode cfg.enableBrkRti bytes = .ok (i, rest) ↔ bytes = encode i ++ rest ∧ i.wf cfg = true := by
  rw [wf_iff_opcode]
  constructor
  · intro h
    cases bytes with
    | nil => cases h
    | cons op bytes =>
      obtain ⟨f, operand, hf, hi, rfl⟩ := decode_cons_eq_ok_iff.1 h
      have henc := encode_of_decodeOpcode hf hi
      obtain ⟨rfl, -⟩ := List.cons.inj henc
      exact ⟨by rw [henc]; rfl, (decodeOpcode_eq_some_iff.1 hf).1⟩
  · rintro ⟨rfl, hwf⟩
    obtain ⟨r, hr, hi⟩ := tableRow i
    rw [withOperand_eq_ofBytes] at hi
    exact decode_cons_eq_ok_iff.2 ⟨r.form, i.operand.bytes, decodeOpcode_eq_some_iff.2 ⟨hwf, r, hr, rfl⟩, hi, rfl⟩

theorem instr_length_eq (i : Instr) : i.length = (encode i).length := Nat.add_comm _ _

theorem instr_length_le_three (i : Instr) : i.length ≤ 3 := by
  have h : i.operand.bytes.length ≤ 2 := by
    rcases i.operand with _ | _ | _ | (_ | _ | _ | _ | _ | _ | _ | _) | _ | _ <;> simp [Operand.bytes, MemMode.bytes]
  unfold Instr.length
  omega

/-- Settles O1: `decode_eq_ok_iff` from right to left. -/
theorem decodeEncodeRoundTrip : Obligations.DecodeEncodeRoundTrip := fun _ _ _ hwf => decode_eq_ok_iff.2 ⟨rfl, hwf⟩

/-- Settles O2: `decode_eq_ok_iff` from left to right. -/
theorem decodedBytesAreTheEncoding : Obligations.DecodedBytesAreTheEncoding := by
  intro cfg bytes rest i h
  obtain ⟨hbytes, hwf⟩ := decode_eq_ok_iff.1 h
  exact ⟨hbytes, (instr_length_eq i).symm, instr_length_le_three i, hwf⟩

/-- Settles O3: the decoder, run on the nine words. -/
theorem writtenOutWordsDecode : Obligations.WrittenOutWordsDecode := by
  unfold Obligations.WrittenOutWordsDecode
  decide

end Sys2Proof
end

section
/-! SUPPORT. The family of 30_encoding.md, second part: the assembler (R132). A mnemonic and a mode determine the opcode, and
so the mnemonic and the operand determine the instruction; the search of `assemble` then finds no other. -/

namespace Sys2Proof

/-- The opcode of the first row with a mnemonic and mode. -/
def opcodeFor (mn : Mnemonic) (mode : Mode) : Option Byte :=
  (opcodeTable.find? fun r =>
    (r.form.applied 0 0).1.mnemonic == mn && (r.form.applied 0 0).1.operand.mode == mode).map Row.opcode

/-- No two rows have the same mnemonic and mode (30_encoding.md R127). -/
theorem opcodeFor_eq (i : Instr) : opcodeFor i.mnemonic i.operand.mode = some i.opcode := by
  cases i <;> rfl

/-- The mnemonic and the operand determine the instruction. -/
theorem instr_ext {i j : Instr} (hmn : i.mnemonic = j.mnemonic) (ho : i.operand = j.operand) : i = j := by
  have hop : i.opcode = j.opcode := by
    have hi := opcodeFor_eq i
    rw [hmn, ho, opcodeFor_eq] at hi
    exact (Option.some.inj hi).symm
  obtain ⟨r, hr, hi⟩ := tableRow i
  obtain ⟨r', hr', hj⟩ := tableRow j
  rw [← hop, hr] at hr'
  cases hr'
  exact Option.some.inj (hi.symm.trans (ho ▸ hj))

/-- What the assembler finds has the mnemonic and operand it was given. -/
theorem assemble_eq_some {mn : Mnemonic} {o : Operand} {j : Instr} (h : assemble mn o = some j) :
    j.mnemonic = mn ∧ j.operand = o := by
  obtain ⟨r, -, hr⟩ := List.exists_of_findSome?_eq_some h
  split at hr
  · split at hr
    · next hj => cases hr; exact hj
    · cases hr
  · cases hr

theorem assemble_mnemonic_operand (i : Instr) : assemble i.mnemonic i.operand = some i := by
  obtain ⟨r, hr, hi⟩ := tableRow i
  cases hj : assemble i.mnemonic i.operand with
  | none => simpa [hi] using List.findSome?_eq_none_iff.1 hj r (rowOf_eq_some hr).1
  | some j =>
    obtain ⟨hmn, ho⟩ := assemble_eq_some hj
    rw [instr_ext hmn ho]

theorem assembleBranch_eq_some_iff {addr target : Word} {b : Byte} :
    assembleBranch addr target = some b ↔
      (-128 ≤ (target.toNat : Int) - (addr.toNat + 2) ∧ (target.toNat : Int) - (addr.toNat + 2) ≤ 127) ∧
        b = BitVec.ofInt 8 ((target.toNat : Int) - (addr.toNat + 2)) := by
  simp only [assembleBranch, Option.ite_none_right_eq_some, Option.some.injEq, eq_comm (a := b)]

/-- A displacement in range is the number of its byte. -/
theorem sext_ofInt {d : Int} (h1 : -128 ≤ d) (h2 : d ≤ 127) : sext (BitVec.ofInt 8 d) = BitVec.ofInt 16 d := by
  apply BitVec.eq_of_toInt_eq
  rw [sext_toInt, BitVec.toInt_ofInt, BitVec.toInt_ofInt, Int.bmod_eq_of_le (by omega) (by omega),
    Int.bmod_eq_of_le (by omega) (by omega)]

/-- The displacement of a target in range reaches it (30_encoding.md R122, mode `rel`; R132). -/
theorem branchTarget_ofInt {addr target : Word} {d : Int} (h1 : -128 ≤ d) (h2 : d ≤ 127)
    (h : d = (target.toNat : Int) - (addr.toNat + 2)) : branchTarget addr (BitVec.ofInt 8 d) = target := by
  apply BitVec.eq_of_toNat_eq
  rw [branchTarget, sext_ofInt h1 h2]
  subst h
  simp only [BitVec.ofNat_eq_ofNat, BitVec.toNat_add, BitVec.toNat_ofInt, BitVec.toNat_ofNat]
  omega

/-- Settles O4: `assemble` inverts mnemonic and operand, and a displacement in range reaches its target. -/
theorem assemblerFindsInstructionAndBranch : Obligations.AssemblerFindsInstructionAndBranch := by
  refine ⟨assemble_mnemonic_operand, fun addr target => ⟨?_, fun b h => ?_⟩⟩
  · simp [Option.isSome_iff_exists, assembleBranch_eq_some_iff]
  · obtain ⟨⟨h1, h2⟩, rfl⟩ := assembleBranch_eq_some_iff.1 h
    exact branchTarget_ofInt h1 h2 rfl

end Sys2Proof
end

section
/-! SUPPORT. The family of 30_encoding.md, third part: the step on the bytes at PC (R130), and the effective addresses as
numbers (R122, R123). -/

namespace Sys2Proof.Machine

theorem fetched_written (f : Form) (s : State) : (fetched f s).2.written = s.written := by
  cases f <;> simp [fetched, fetchOperand, State.memRead, State.readShort]

/-- A step of a running machine with every register written, by the format of the opcode at PC. -/
theorem step_of_decodeOpcode {s : State} {f : Form} (hrun : s.running = true) (hw : s.written = .every true)
    (hf : decodeOpcode s.cfg.enableBrkRti (s.peek s.pc) = some f) : step s = exec (fetched f s).1 (fetched f s).2 := by
  rw [running_step hrun (by rw [hw]; rfl), hf]
  exact execute_of_written ((fetched_written f s).trans hw) _ _ _

/-- Where no handler runs for the fetch, it reads the bytes after the opcode that the format takes and moves PC past them. -/
theorem fetched_of_quiet {s : State} {f : Form} {operand rest : List Byte} {i : Instr} (h0 : s.quietRead s.pc)
    (h1 : s.quietRead (s.pc + 1)) (h2 : s.quietRead (s.pc + 2)) (hi : f.ofBytes operand = some i)
    (hbytes : [s.peek (s.pc + 1), s.peek (s.pc + 2)] = operand ++ rest) :
    fetched f s = (i, s.setPc (s.pc + BitVec.ofNat 16 (1 + operand.length))) := by
  have hpc (k m : Word) : s.pc + k + m = s.pc + (k + m) := BitVec.add_assoc _ _ _
  unfold fetched
  rw [afterRead_of_quiet h0]
  unfold Form.ofBytes at hi
  split at hi <;> cases hi
  · rfl
  · next make b1 =>
    obtain ⟨rfl, -⟩ := List.cons.inj hbytes
    simp only [fetchOperand, State.memRead, setPc_pc, setPc_peek, afterRead_setPc, afterRead_of_quiet h1, hpc]
    rfl
  · next make lo hi =>
    obtain ⟨rfl, htail⟩ := List.cons.inj hbytes
    obtain ⟨rfl, -⟩ := List.cons.inj htail
    simp only [fetchOperand, State.readShort, State.readPair, State.memRead, setPc_pc, setPc_peek, afterRead_setPc,
      afterRead_of_quiet h1, hpc, show (1 + 1 : Word) = 2 from rfl, afterRead_of_quiet h2]
    rfl

/-- Settles O5: the fetch of a quiet step reads the operand bytes that the decoder takes. -/
theorem stepRunsDecodedInstruction : Obligations.StepRunsDecodedInstruction := by
  refine ⟨fun s f hrun hw hf => step_of_decodeOpcode hrun hw hf, fun s i rest hrun hw h0 h1 h2 hdec => ?_⟩
  obtain ⟨f, operand, hf, hi, hbytes⟩ := decode_cons_eq_ok_iff.1 hdec
  have hlen : i.length = 1 + operand.length := by
    rw [instr_length_eq, encode_of_decodeOpcode hf hi, List.length_cons, Nat.add_comm]
  rw [step_of_decodeOpcode hrun hw hf, fetched_of_quiet h0 h1 h2 hi hbytes, hlen]
  rfl

/-! Addresses as numbers. -/

theorem zext_add_eq_ofNat (z x : Byte) : zext (z + x) = BitVec.ofNat 16 ((z.toNat + x.toNat) % 256) := by
  rw [zext_eq_ofNat, BitVec.toNat_add]

theorem ofNat_add_zext_eq_ofNat (n : Nat) (x : Byte) :
    BitVec.ofNat 16 n + zext x = BitVec.ofNat 16 ((n + x.toNat) % 65536) := by
  apply BitVec.eq_of_toNat_eq
  simp [zext_toNat]

theorem word_add_zext_eq_ofNat (w : Word) (x : Byte) : w + zext x = BitVec.ofNat 16 ((w.toNat + x.toNat) % 65536) := by
  rw [← ofNat_add_zext_eq_ofNat, BitVec.ofNat_toNat, BitVec.setWidth_eq]

theorem word_add_sext_eq_ofInt (w : Word) (d : Byte) : w + sext d = BitVec.ofInt 16 (w.toNat + d.toInt) := by
  rw [BitVec.ofInt_add, BitVec.ofInt_natCast, BitVec.ofNat_toNat, BitVec.setWidth_eq]
  rfl

theorem page_toNat (w : Word) : (w &&& 0xFF00).toNat = (w.toNat / 256) <<< 8 := by
  have h : w &&& (0xFF00 : Word) = w >>> 8 <<< 8 := by rw [BitVec.shiftLeft_ushiftRight]; rfl
  rw [h]
  simp only [BitVec.toNat_shiftLeft, BitVec.toNat_ushiftRight, Nat.shiftRight_eq_div_pow, Nat.shiftLeft_eq]
  omega

theorem inPage_toNat (w : Word) : (w &&& 0x00FF).toNat = w.toNat % 256 := Nat.and_two_pow_sub_one_eq_mod w.toNat 8

/-- Where the high byte of the pointer of `JMP (w)` is (30_encoding.md R122, `ind`). -/
theorem indirectHigh_eq_ofNat (pageWrap : Bool) (w : Word) :
    indirectHigh pageWrap w = BitVec.ofNat 16 (if pageWrap then w.toNat / 256 * 256 + (w.toNat + 1) % 256
      else (w.toNat + 1) % 65536) := by
  cases pageWrap with
  | false => exact word_succ_eq_ofNat w
  | true =>
    have hlt : (w + 1).toNat % 256 < 2 ^ 8 := Nat.mod_lt _ (by decide)
    apply BitVec.eq_of_toNat_eq
    rw [indirectHigh, if_pos rfl, if_pos rfl, BitVec.toNat_or, page_toNat, inPage_toNat,
      ← Nat.shiftLeft_add_eq_or_of_lt hlt, Nat.shiftLeft_eq]
    simp only [BitVec.ofNat_eq_ofNat, BitVec.toNat_add, BitVec.toNat_ofNat]
    omega

/-- Settles O8: each address of R122 as a number, mode by mode. -/
theorem effectiveAddressesFollowTable : Obligations.EffectiveAddressesFollowTable := by
  intro s
  refine ⟨fun z => ?_, fun z => ?_, fun z => ?_, fun w => rfl, fun w => ?_, fun w => ?_, fun z => ?_, fun z => ?_,
    fun w => ?_, fun d => ?_, rfl, fun v => rfl, fun m => rfl⟩
  · exact Prod.ext (zext_eq_ofNat z) rfl
  · exact Prod.ext (zext_add_eq_ofNat z s.x) rfl
  · exact Prod.ext (zext_add_eq_ofNat z s.y) rfl
  · exact Prod.ext (word_add_zext_eq_ofNat w s.x) rfl
  · exact Prod.ext (word_add_zext_eq_ofNat w s.y) rfl
  · have hhi : zext (z + s.x + 1) = BitVec.ofNat 16 ((z.toNat + s.x.toNat + 1) % 256) := by
      rw [zext_succ_eq_ofNat, BitVec.toNat_add, Nat.mod_add_mod]
    exact (readPair_eq s _ _).trans (by rw [zext_add_eq_ofNat, hhi])
  · show ((s.readPair (zext z) (zext (z + 1))).1 + zext (s.readPair (zext z) (zext (z + 1))).2.y, _) = _
    rw [readPair_y, readPair_eq, zext_eq_ofNat z, zext_succ_eq_ofNat]
    exact Prod.ext (ofNat_add_zext_eq_ofNat _ s.y) rfl
  · rw [indirectTarget, readPair_eq, indirectHigh_eq_ofNat]
  · exact congrArg s.setPc (word_add_sext_eq_ofInt s.pc d)

end Sys2Proof.Machine
end

section
/-! SUPPORT. The family of 30_encoding.md, fourth part: which accesses an instruction makes (R124). An instruction is made of
bus reads at `readAddrs`, bus writes at `storedAddrs` and writes of CPU registers, so a relation those keep holds between the
states before and after it (`AccessClosed`, `exec_accesses`); `StoreClosed` says the same of reads anywhere. -/

namespace Sys2Proof.Machine

/-- A relation kept by bus reads and bus writes at the given addresses and by writes of CPU registers. -/
structure AccessClosed (reads stored : List Word) (R : State → State → Prop) : Prop where
  trans : ∀ {s t u}, R s t → R t u → R s u
  read : ∀ s, ∀ a ∈ reads, R s (s.afterRead a)
  write : ∀ s, ∀ a ∈ stored, ∀ v, R s (s.memWrite a v)
  cpu : ∀ s c, R s (s.setCpu c)

section closed
variable {reads stored : List Word} {R : State → State → Prop} (hR : AccessClosed reads stored R)
include hR

theorem refl_accessClosed (s : State) : R s s := hR.cpu s s.cpu

/-- A state that differs from another in CPU registers alone. -/
theorem registers_accessClosed {s t : State} (h : t = s.setCpu t.cpu) : R s t := h ▸ hR.cpu s t.cpu

theorem readPair_accessClosed {lo hi : Word} (hlo : lo ∈ reads) (hhi : hi ∈ reads) (s : State) :
    R s (s.readPair lo hi).2 :=
  hR.trans (hR.read s lo hlo) (hR.read _ hi hhi)

theorem effectiveAddress_accessClosed {m : MemMode} {s : State} (h : pointerAddrs m s ⊆ reads) :
    R s (effectiveAddress m s).2 := by
  cases m with
  | indx z => exact readPair_accessClosed hR (h (by simp [pointerAddrs])) (h (by simp [pointerAddrs])) s
  | indy z => exact readPair_accessClosed hR (h (by simp [pointerAddrs])) (h (by simp [pointerAddrs])) s
  | zp | zpx | zpy | abs | absx | absy => exact refl_accessClosed hR s

theorem storeMem_accessClosed {m : MemMode} {s : State} (hp : pointerAddrs m s ⊆ reads)
    (hw : (effectiveAddress m s).1 ∈ stored) (reg : State → Byte) : R s (storeMem m reg s) :=
  hR.trans (effectiveAddress_accessClosed hR hp) (hR.write _ _ hw _)

theorem readMem_accessClosed {m : MemMode} {s : State} (h : (effectiveAddress m s).1 :: pointerAddrs m s ⊆ reads) :
    R s ((effectiveAddress m s).2.afterRead (effectiveAddress m s).1) :=
  hR.trans (effectiveAddress_accessClosed hR (List.subset_of_cons_subset h)) (hR.read _ _ (h (List.mem_cons_self ..)))

theorem modifyMem_accessClosed {m : MemMode} {s : State} (h : (effectiveAddress m s).1 :: pointerAddrs m s ⊆ reads)
    (hw : (effectiveAddress m s).1 ∈ stored) (alu : Byte → Flags → Byte × Flags) : R s (modifyMem m alu s) :=
  hR.trans (readMem_accessClosed hR h) (hR.trans (hR.write _ _ hw _) (registers_accessClosed hR rfl))

theorem push_accessClosed {s : State} (h : stackAddr s.sp ∈ stored) (v : Byte) : R s (push v s) :=
  hR.trans (hR.write _ _ h v) (registers_accessClosed hR rfl)

theorem pull_accessClosed {s : State} (h : stackAddr (s.sp + 1) ∈ reads) : R s (pull s).2 := by
  rw [pull_eq]
  exact hR.trans (hR.read _ _ h) (registers_accessClosed hR rfl)

theorem pushWord_accessClosed {s : State} (h1 : stackAddr s.sp ∈ stored) (h2 : stackAddr (s.sp - 1) ∈ stored) (w : Word) :
    R s (pushWord w s) := by
  rw [pushWord_eq]
  exact hR.trans (hR.write _ _ h1 _) (hR.trans (hR.write _ _ h2 _) (registers_accessClosed hR rfl))

theorem pullWord_accessClosed {s : State} (h1 : stackAddr (s.sp + 1) ∈ reads) (h2 : stackAddr (s.sp + 1 + 1) ∈ reads) :
    R s (pullWord s).2 := by
  rw [pullWord_eq]
  exact hR.trans (hR.read _ _ h1) (hR.trans (hR.read _ _ h2) (registers_accessClosed hR rfl))

theorem enterBreak_accessClosed {s : State} (hr : [0xFFFE, 0xFFFF] ⊆ reads)
    (hw : [stackAddr s.sp, stackAddr (s.sp - 1), stackAddr (s.sp - 1 - 1)] ⊆ stored) : R s (enterBreak s) := by
  rw [enterBreak_eq]
  exact hR.trans (hR.write _ _ (hw (by simp)) _) (hR.trans (hR.write _ _ (hw (by simp)) _)
    (hR.trans (hR.write _ _ (hw (by simp)) _) (hR.trans (hR.read _ _ (hr (by simp)))
      (hR.trans (hR.read _ _ (hr (by simp))) (registers_accessClosed hR rfl)))))

theorem returnFromBreak_accessClosed {s : State}
    (h : [stackAddr (s.sp + 1), stackAddr (s.sp + 1 + 1), stackAddr (s.sp + 1 + 1 + 1)] ⊆ reads) :
    R s (returnFromBreak s) := by
  rw [returnFromBreak_eq]
  exact hR.trans (hR.read _ _ (h (by simp))) (hR.trans (hR.read _ _ (h (by simp)))
    (hR.trans (hR.read _ _ (h (by simp))) (registers_accessClosed hR rfl)))

end closed

/-! The addresses an instruction reads, by its shape. -/

theorem readAddrs_of_value {i : Instr} {eff : Byte → State → State} (h : valueEffect i.mnemonic = some eff) {m : MemMode}
    (ho : i.operand = .mem m) (s : State) : readAddrs i s = (effectiveAddress m s).1 :: pointerAddrs m s := by
  unfold readAddrs
  rw [ho]
  revert h
  cases i.mnemonic <;> intro h <;> cases h <;> rfl

theorem readAddrs_of_store {i : Instr} {reg : State → Byte} (h : storedRegister i.mnemonic = some reg) {m : MemMode}
    (ho : i.operand = .mem m) (s : State) : readAddrs i s = pointerAddrs m s := by
  unfold readAddrs
  rw [ho]
  revert h
  cases i.mnemonic <;> intro h <;> cases h <;> rfl

theorem readAddrs_of_modify {i : Instr} {alu : Byte → Flags → Byte × Flags} (h : modifyAlu i.mnemonic = some alu)
    {m : MemMode} (ho : i.operand = .mem m) (s : State) :
    readAddrs i s = (effectiveAddress m s).1 :: pointerAddrs m s := by
  unfold readAddrs
  rw [ho]
  revert h
  cases i.mnemonic <;> intro h <;> cases h <;> rfl

theorem readAddrs_brk {s : State} (h : s.cfg.enableBrkRti = true) : readAddrs .brk s = [0xFFFE, 0xFFFF] := if_pos h

theorem readAddrs_rti {s : State} (h : s.cfg.enableBrkRti = true) :
    readAddrs .rti s = [stackAddr (s.sp + 1), stackAddr (s.sp + 1 + 1), stackAddr (s.sp + 1 + 1 + 1)] := if_pos h

theorem onRel_registers (cond : Flags → Bool) (o : Operand) (s : State) : onRel cond o s = s.setCpu (onRel cond o s).cpu := by
  cases o with
  | rel d =>
    simp only [onRel, branch]
    split <;> rfl
  | imp | acc | imm | mem | ind => rfl

section shapes
variable {i : Instr} {s : State} {R : State → State → Prop} (hR : AccessClosed (readAddrs i s) (storedAddrs i s) R)
include hR

theorem valueEffect_accessClosed {eff : Byte → State → State} (h : valueEffect i.mnemonic = some eff) {m : Byte}
    {s1 : State} (ho : operandValue i.operand s = some (m, s1)) : R s (eff m s1) := by
  have heff : R s1 (eff m s1) := registers_accessClosed hR (by revert h; cases i.mnemonic <;> intro h <;> cases h <;> rfl)
  refine hR.trans ?_ heff
  cases hi : i.operand with
  | mem md =>
    rw [hi] at ho
    obtain ⟨-, rfl⟩ := Prod.mk.inj (Option.some.inj ho)
    exact readMem_accessClosed hR (by simp [readAddrs_of_value h hi])
  | imm v => rw [hi] at ho; cases ho; exact refl_accessClosed hR s
  | acc => rw [hi] at ho; cases ho; exact refl_accessClosed hR s
  | imp | ind | rel => rw [hi] at ho; cases ho

theorem plainEffect_accessClosed {eff : Operand → State → State} (h : plainEffect i.mnemonic = some eff) :
    R s (eff i.operand s) := by
  cases i <;> cases h
  case pha | php => exact push_accessClosed hR (List.mem_cons_self ..) _
  case pla | plp => exact hR.trans (pull_accessClosed hR (List.mem_cons_self ..)) (registers_accessClosed hR rfl)
  case jmpInd w =>
    exact hR.trans (readPair_accessClosed hR (List.mem_cons_self ..) (List.mem_cons_of_mem _ (List.mem_cons_self ..)) s)
      (registers_accessClosed hR rfl)
  case jsr w =>
    exact hR.trans (pushWord_accessClosed hR (List.mem_cons_self ..) (List.mem_cons_of_mem _ (List.mem_cons_self ..)) _)
      (registers_accessClosed hR rfl)
  case rts =>
    exact hR.trans (pullWord_accessClosed hR (List.mem_cons_self ..) (List.mem_cons_of_mem _ (List.mem_cons_self ..)))
      (registers_accessClosed hR rfl)
  case bpl | bmi | bvc | bvs | bcc | bcs | bne | beq => exact registers_accessClosed hR (onRel_registers _ _ s)
  all_goals exact registers_accessClosed hR rfl

end shapes

theorem cycles_notMem_mnemonicWrites (mn : Mnemonic) : .cycles ∉ mnemonicWrites mn := by cases mn <;> decide

/-- What executing an instruction can do: it completes with an effect made of its accesses and of writes of registers other
than `cycles`, or, as BRK or RTI that the configuration does not have, it takes the fault. -/
theorem exec_accesses (i : Instr) (s : State) :
    (∃ u, exec i s = complete i.opcode u ∧ u.cycles = s.cycles ∧
        ∀ R, AccessClosed (readAddrs i s) (storedAddrs i s) R → R s u) ∨
      (i.wf s.cfg = false ∧ exec i s = finish (raiseUnimplemented i.opcode (s.pc - 1) s)) := by
  have hcyc := cycles_notMem_mnemonicWrites i.mnemonic
  rcases instr_shape i with ⟨eff, he⟩ | ⟨reg, he⟩ | ⟨alu, he⟩ | ⟨eff, he⟩ | rfl | rfl
  · obtain ⟨m, s1, ho, hs⟩ := exec_value he s
    have hs1 : SameCpu s s1 := operandValue_closed sameCpu_closed ho
    exact .inl ⟨_, hs, (valueEffect_keeps he m s1 .cycles hcyc).trans hs1.cycles,
      fun R hR => valueEffect_accessClosed hR he ho⟩
  · obtain ⟨m, ho, hs⟩ := exec_store he s
    refine .inl ⟨_, hs, storeMem_keeps (regs := []) m reg s .cycles (by simp), fun R hR => ?_⟩
    exact storeMem_accessClosed hR (by simp [readAddrs_of_store he ho]) (by simp [storedAddrs_of_store he ho]) reg
  · rcases exec_modify he s with ⟨-, hs⟩ | ⟨m, ho, hs⟩
    · exact .inl ⟨_, hs, rfl, fun R hR => registers_accessClosed hR rfl⟩
    · refine .inl ⟨_, hs, modifyMem_keeps (modifyAlu_kept he) m s .cycles hcyc, fun R hR => ?_⟩
      exact modifyMem_accessClosed hR (by simp [readAddrs_of_modify he ho]) (by simp [storedAddrs_of_modify he ho]) alu
  · exact .inl ⟨_, exec_plain he s, plainEffect_keeps he _ s .cycles hcyc, fun R hR => plainEffect_accessClosed hR he⟩
  · cases hb : s.cfg.enableBrkRti with
    | true =>
      refine .inl ⟨_, if_pos hb, enterBreak_keeps s .cycles hcyc, fun R hR => ?_⟩
      exact enterBreak_accessClosed hR (by simp [readAddrs_brk hb]) (by simp [storedAddrs_brk hb])
    | false => exact .inr ⟨by simp [Instr.wf, hb], if_neg (by simp [hb])⟩
  · cases hb : s.cfg.enableBrkRti with
    | true =>
      refine .inl ⟨_, if_pos hb, returnFromBreak_keeps s .cycles hcyc, fun R hR => ?_⟩
      exact returnFromBreak_accessClosed hR (by simp [readAddrs_rti hb])
    | false => exact .inr ⟨by simp [Instr.wf, hb], if_neg (by simp [hb])⟩

end Sys2Proof.Machine
end

section
/-! SUPPORT. The family of 30_encoding.md, fifth part: what follows from the accesses of an instruction. In a calm state every
instruction completes with the cost of its row (R130, R134); where no handler runs for its accesses, it changes memory only
where it stores (R124). -/

namespace Sys2Proof.Machine

/-! Completion. -/

theorem calm_accessClosed (reads stored : List Word) : AccessClosed reads stored (fun s t => s.Calm → t.Calm) where
  trans h k := k ∘ h
  read _ a _ h := afterRead_calm h a
  write _ a _ v h := memWrite_calm h a v
  cpu _ _ h := h

theorem sameCfg_accessClosed (reads stored : List Word) : AccessClosed reads stored (fun s t => t.cfg = s.cfg) where
  trans h k := k.trans h
  read s a _ := afterRead_cfg s a
  write s a _ v := memWrite_cfg s a v
  cpu _ _ := rfl

/-- In a calm state a well-formed instruction completes, with the cost of its opcode (30_encoding.md R130, R134). -/
theorem exec_of_calm {i : Instr} {s : State} (hs : s.Calm) (hwf : i.wf s.cfg = true) :
    ∃ t, exec i s = .next t ∧ t.cycles = s.cycles + cycleCostOf s.cfg i.opcode ∧ t.diverged = false := by
  rcases exec_accesses i s with ⟨u, he, hcyc, hu⟩ | ⟨hn, -⟩
  · have hcalm : u.Calm := hu _ (calm_accessClosed _ _) hs
    have hcfg : u.cfg = s.cfg := hu _ (sameCfg_accessClosed _ _)
    exact ⟨_, he.trans (complete_calm hcalm), by simp [hcyc, hcfg], hcalm.1⟩
  · rw [hwf] at hn
    cases hn

theorem finish_next_or_fault (s : State) : finish s = .next s ∨ finish s = .fault .handlersNeverReturn := by
  unfold finish
  split
  · exact .inr rfl
  · exact .inl rfl

theorem exec_next_or_fault (i : Instr) (s : State) : (∃ t, exec i s = .next t) ∨ exec i s = .fault .handlersNeverReturn := by
  rcases exec_accesses i s with ⟨u, he, -⟩ | ⟨-, he⟩ <;> rw [he] <;>
    exact (finish_next_or_fault _).imp_left fun h => ⟨_, h⟩

/-- The `cycles` column of the table is the listed cost of what the row makes (30_encoding.md R127, R134). -/
theorem opcodeTable_cycles (b : Byte) (w : Word) :
    opcodeTable.map Row.cycles = opcodeTable.map (fun r => BitVec.ofNat 64
      (listedCost (r.form.applied b w).1.mnemonic (r.form.applied b w).1.operand.mode)) := by
  simp only [opcodeTable, List.map_append]
  rfl

theorem tableCycles_opcode (i : Instr) :
    tableCycles i.opcode = BitVec.ofNat 64 (listedCost i.mnemonic i.operand.mode) := by
  obtain ⟨r, b, w, hr, rfl⟩ := row_of_instr i
  rw [tableCycles, hr]
  exact List.map_inj_left.1 (opcodeTable_cycles b w) r (rowOf_eq_some hr).1

/-- Settles O37: `exec_accesses` in a calm state and in any state, and the table's costs row by row. -/
theorem everyInstructionCompletes : Obligations.EveryInstructionCompletes := by
  refine ⟨fun i s hs hwf => exec_of_calm hs hwf, exec_next_or_fault, fun i cfg hcfg => ?_⟩
  rw [← tableCycles_opcode, cycleCostOf, hcfg]
  rfl

/-! The memory frame. -/

/-- From one state to the other no byte has changed but at the given addresses, and nothing else but CPU registers. -/
structure StoresOnly (stored : List Word) (s t : State) : Prop where
  bytes : ∀ k, (∀ a ∈ stored, s.index k ≠ s.index a) → t.peek k = s.peek k
  latches : t.latches = s.latches
  readWatch : t.readWatch = s.readWatch
  writeWatch : t.writeWatch = s.writeWatch
  suppress : t.suppress = s.suppress
  cfg : t.cfg = s.cfg
  refusalMark : t.refusalMark = s.refusalMark
  running : t.running = s.running
  trace : t.trace = s.trace

theorem storesOnly_refl (stored : List Word) (s : State) : StoresOnly stored s s :=
  ⟨fun _ _ => rfl, rfl, rfl, rfl, rfl, rfl, rfl, rfl, rfl⟩

theorem storesOnly_poke {stored : List Word} {a : Word} (h : a ∈ stored) (s : State) (v : Byte) :
    StoresOnly stored s (s.poke a v) :=
  ⟨fun k hk => peek_poke_ne s a k v (hk a h), rfl, rfl, rfl, rfl, rfl, rfl, rfl, rfl⟩

theorem storesOnly_trans {stored : List Word} {s t u : State} (h : StoresOnly stored s t) (k : StoresOnly stored t u) :
    StoresOnly stored s u where
  bytes j hj := by
    have hidx (a : Word) : t.index a = s.index a := by simp only [State.index, h.cfg]
    rw [k.bytes j (by simpa only [hidx] using hj), h.bytes j hj]
  latches := k.latches.trans h.latches
  readWatch := k.readWatch.trans h.readWatch
  writeWatch := k.writeWatch.trans h.writeWatch
  suppress := k.suppress.trans h.suppress
  cfg := k.cfg.trans h.cfg
  refusalMark := k.refusalMark.trans h.refusalMark
  running := k.running.trans h.running
  trace := k.trace.trans h.trace

/-- No handler runs for reads of the one list of addresses or writes of the other. -/
def QuietAt (reads stored : List Word) (s : State) : Prop :=
  (∀ a ∈ reads, s.quietRead a) ∧ ∀ a ∈ stored, s.quietWrite a

theorem quietAt_of_storesOnly {reads stored : List Word} {s t : State} (h : StoresOnly stored s t)
    (hs : QuietAt reads stored s) : QuietAt reads stored t := by
  simpa only [QuietAt, State.quietRead, State.quietWrite, State.watchers, h.suppress, h.readWatch, h.writeWatch] using hs

theorem storesOnly_accessClosed (reads stored : List Word) :
    AccessClosed reads stored (fun s t => QuietAt reads stored s → StoresOnly stored s t) where
  trans h k hs := storesOnly_trans (h hs) (k (quietAt_of_storesOnly (h hs) hs))
  read s a ha hs := by rw [afterRead_of_quiet (hs.1 a ha)]; exact storesOnly_refl stored s
  write s a ha v hs := by rw [memWrite_of_quiet v (hs.2 a ha)]; exact storesOnly_poke ha s v
  cpu _ _ _ := ⟨fun _ _ => rfl, rfl, rfl, rfl, rfl, rfl, rfl, rfl, rfl⟩

/-- Settles O34: where no handler runs for its accesses, an instruction is `StoresOnly` at `storedAddrs`, the fault of BRK and
RTI apart. -/
theorem memoryFrameWithoutHandlers : Obligations.MemoryFrameWithoutHandlers := by
  intro i s t hquiet h
  rcases exec_accesses i s with ⟨u, he, -, hu⟩ | ⟨hn, he⟩ <;> rw [he] at h
  · have hframe : StoresOnly (storedAddrs i s) s u := hu _ (storesOnly_accessClosed _ _) hquiet
    obtain ⟨rfl, -⟩ := complete_eq_next h
    exact ⟨hframe.bytes, hframe.latches, hframe.readWatch, hframe.writeWatch, hframe.suppress, hframe.cfg,
      hframe.refusalMark, fun _ => ⟨hframe.running, hframe.trace⟩⟩
  · obtain ⟨rfl, -⟩ := finish_eq_next h
    exact ⟨fun _ _ => rfl, rfl, rfl, rfl, rfl, rfl, rfl, fun hwf => absurd hwf (by simp [hn])⟩

end Sys2Proof.Machine
end

section
/-! SUPPORT. What the families of the instruction rules share: the forms a mnemonic has are the rows of the table with it
(30_encoding.md R127), and in a calm state an instruction that reads an operand value or stores a register completes with
its effect and the cost of its opcode (R130). -/

namespace Sys2Proof.Machine

/-! The forms of a mnemonic. -/

/-- The modes and opcodes of the rows with a mnemonic, in the order of the table. -/
def tableForms (mn : Mnemonic) : List (Mode × Byte) :=
  (opcodeTable.filter fun r => (r.form.applied 0 0).1.mnemonic == mn).map fun r =>
    ((r.form.applied 0 0).1.operand.mode, r.opcode)

theorem mem_tableForms {mn : Mnemonic} {f : Mode × Byte} :
    f ∈ tableForms mn ↔ ∃ r ∈ opcodeTable, (r.form.applied 0 0).1.mnemonic = mn ∧
      ((r.form.applied 0 0).1.operand.mode, r.opcode) = f := by
  simp only [tableForms, List.mem_map, List.mem_filter, beq_iff_eq, and_assoc]

/-- What a row makes has the opcode of the row. -/
theorem opcode_applied {r : Row} (h : r ∈ opcodeTable) (b : Byte) (w : Word) : (r.form.applied b w).1.opcode = r.opcode :=
  (List.cons.inj (List.map_inj_left.1 (opcodeTable_encodes b w) r h)).1

/-- An instruction's form is in a row with its mnemonic. -/
theorem form_mem_tableForms (i : Instr) : (i.operand.mode, i.opcode) ∈ tableForms i.mnemonic := by
  obtain ⟨r, hfind, hop⟩ := Option.map_eq_some_iff.1 (opcodeFor_eq i)
  obtain ⟨hmn, hmode⟩ : (r.form.applied 0 0).1.mnemonic = i.mnemonic ∧
      (r.form.applied 0 0).1.operand.mode = i.operand.mode := by simpa using List.find?_some hfind
  exact mem_tableForms.2 ⟨r, List.mem_of_find?_eq_some hfind, hmn, by rw [hmode, hop]⟩

/-- A mnemonic has the forms that the table lists for it, in any order. -/
theorem hasForms_of_perm {mn : Mnemonic} {forms : List (Mode × Byte)} (h : forms.Perm (tableForms mn)) :
    HasForms mn forms := by
  refine ⟨fun i hi => h.mem_iff.2 (hi ▸ form_mem_tableForms i), fun f hf => ?_⟩
  obtain ⟨r, hr, hmn, rfl⟩ := mem_tableForms.1 (h.mem_iff.1 hf)
  exact ⟨(r.form.applied 0 0).1, hmn, by rw [opcode_applied hr]⟩

/-! Completion with the effect. -/

/-- In a calm state an instruction that reads an operand value completes with its effect of that value. -/
theorem exec_value_of_calm {i : Instr} {eff : Byte → State → State} (h : valueEffect i.mnemonic = some eff) {s : State}
    (hs : s.Calm) :
    ∃ m s1, operandValue i.operand s = some (m, s1) ∧ SameCpu s s1 ∧
      exec i s = .next ((eff m s1).setCycles (s.cycles + cycleCostOf s.cfg i.opcode)) := by
  obtain ⟨m, s1, ho, he⟩ := exec_value h s
  have hcpu : SameCpu s s1 := operandValue_closed sameCpu_closed ho
  have hcalm : (eff m s1).Calm := valueEffect_accessClosed (calm_accessClosed _ _) h ho hs
  have hcfg : (eff m s1).cfg = s.cfg := valueEffect_accessClosed (sameCfg_accessClosed _ _) h ho
  have hcyc : (eff m s1).cycles = s.cycles :=
    (valueEffect_keeps h m s1 .cycles (cycles_notMem_mnemonicWrites _)).trans hcpu.cycles
  exact ⟨m, s1, ho, hcpu, by rw [he, complete_calm hcalm, hcfg, hcyc]⟩

/-- In a calm state an instruction that stores a register completes with the one bus write. -/
theorem exec_store_of_calm {i : Instr} {reg : State → Byte} (h : storedRegister i.mnemonic = some reg) {s : State}
    (hs : s.Calm) :
    ∃ m, i.operand = .mem m ∧
      exec i s = .next ((storeMem m reg s).setCycles (s.cycles + cycleCostOf s.cfg i.opcode)) := by
  obtain ⟨m, ho, he⟩ := exec_store h s
  have hcalm : (storeMem m reg s).Calm := memWrite_calm (effectiveAddress_calm hs m) _ _
  refine ⟨m, ho, ?_⟩
  rw [he, complete_calm hcalm]
  simp [storeMem]

theorem setNZ_eq (v : Byte) (f : Flags) : setNZ v f = { f with z := decide (v = 0), n := v.getLsbD 7 } := by
  rw [setNZ, BitVec.msb_eq_getLsbD_last]
  rfl

end Sys2Proof.Machine
end

section
/-! SUPPORT. The family of 40_load_store.md: the loads (R200 to R202) and the stores (R203 to R205). -/

namespace Sys2Proof.Machine

/-- The effect of a load of M (40_load_store.md R200 to R202): one register by the mnemonic, and `setNZ(M)`. -/
def loadEffect (mn : Mnemonic) (m : Byte) (s : State) : State :=
  { s with
    a := if mn = .lda then m else s.a
    x := if mn = .ldx then m else s.x
    y := if mn = .ldy then m else s.y
    flags := setNZ m s.flags }

theorem valueEffect_of_load {mn : Mnemonic} (h : mn = .lda ∨ mn = .ldx ∨ mn = .ldy) :
    valueEffect mn = some (loadEffect mn) := by
  rcases h with rfl | rfl | rfl <;> rfl

/-- The register a store mnemonic stores (40_load_store.md R203 to R205). -/
def storeSource (mn : Mnemonic) (s : State) : Byte := if mn = .sta then s.a else if mn = .stx then s.x else s.y

theorem storedRegister_of_store {mn : Mnemonic} (h : mn = .sta ∨ mn = .stx ∨ mn = .sty) :
    storedRegister mn = some (storeSource mn) := by
  rcases h with rfl | rfl | rfl <;> rfl

/-- Settles O9: a load is `loadEffect` of the operand value, and the access to the operand changes no register. -/
theorem loadsWriteRegisterAndNZ : Obligations.LoadsWriteRegisterAndNZ := by
  refine ⟨hasForms_of_perm (by decide), hasForms_of_perm (by decide), hasForms_of_perm (by decide), fun i s hs hmn => ?_⟩
  obtain ⟨m, s1, ho, hcpu, he⟩ := exec_value_of_calm (valueEffect_of_load hmn) hs
  refine ⟨m, s1, ho, he.trans ?_⟩
  simp only [loadEffect, State.setCycles, setNZ_eq, hcpu.a, hcpu.x, hcpu.y, hcpu.flags]

/-- Settles O10: a store writes `storeSource` at the effective address, and the pointer reads change no register. -/
theorem storesWriteRegisterToMemory : Obligations.StoresWriteRegisterToMemory := by
  refine ⟨hasForms_of_perm (by decide), hasForms_of_perm (by decide), hasForms_of_perm (by decide), fun i s hs hmn => ?_⟩
  obtain ⟨m, ho, he⟩ := exec_store_of_calm (storedRegister_of_store hmn) hs
  refine ⟨m, ho, he.trans ?_⟩
  simp only [storeMem, storeSource, State.setCycles, effectiveAddress_a, effectiveAddress_x, effectiveAddress_y]

end Sys2Proof.Machine
end

section
/-! SUPPORT. The family of 41_arithmetic.md: ADC and SBC (R223, R224) and the adders they use (R220 to R222), each written
over the numbers of its operands. -/

namespace Sys2Proof.Machine

/-! The overflow bit. -/

/-- The overflow bit as R220 words it: the operands have the same sign bit and the result has the other one. -/
theorem overflowBit_eq (a b : Byte) (s : Nat) :
    ((a ^^^ BitVec.ofNat 8 s) &&& (b ^^^ BitVec.ofNat 8 s) &&& 0x80 != 0) =
      decide ((128 ≤ a.toNat) = (128 ≤ b.toNat) ∧ (128 ≤ a.toNat) ≠ (128 ≤ s % 256)) := by
  have hmsb (x : Byte) : (x &&& 0x80 != 0) = x.msb := by
    rw [show (0x80 : Byte) = BitVec.twoPow 8 7 from rfl, BitVec.and_twoPow, BitVec.msb_eq_getLsbD_last]
    cases x.getLsbD 7 <;> rfl
  rw [hmsb, BitVec.msb_and, BitVec.msb_xor, BitVec.msb_xor]
  rw [Bool.eq_iff_iff]
  simp only [BitVec.msb_eq_decide, BitVec.toNat_ofNat, Bool.and_eq_true, bne_iff_ne, ne_eq,
    decide_eq_decide, decide_eq_true_eq, eq_iff_iff]
  omega

/-- That is the signed sum out of range, as long as the sum of what lies below the sign bits fits in a byte. -/
theorem overflow_iff_signed {x y : Byte} {k : Nat} (h : x.toNat % 128 + y.toNat % 128 + k ≤ 255) :
    ((128 ≤ x.toNat) = (128 ≤ y.toNat) ∧ (128 ≤ x.toNat) ≠ (128 ≤ (x.toNat + y.toNat + k) % 256)) ↔
      x.toInt + y.toInt + k < -128 ∨ 127 < x.toInt + y.toInt + k := by
  have hx := x.isLt
  have hy := y.isLt
  simp only [eq_iff_iff, ne_eq, BitVec.toInt_eq_toNat_cond]
  omega

/-! The binary adder. -/

theorem bitNat_le_one (c : Bool) : bitNat c ≤ 1 := by cases c <;> decide

theorem bitNat_cast (c : Bool) : (bitNat c : Int) = if c then 1 else 0 := by cases c <;> rfl

/-- AddBin (R220) over the numbers of its operands; V is the signed sum out of range. -/
theorem addBin_eq (a b : Byte) (c : Bool) :
    addBin a b c =
      (BitVec.ofNat 8 (a.toNat + b.toNat + bitNat c), decide (a.toNat + b.toNat + bitNat c > 255),
        decide (a.toInt + b.toInt + bitNat c < -128 ∨ 127 < a.toInt + b.toInt + bitNat c)) := by
  have hc := bitNat_le_one c
  have hfit : a.toNat % 128 + b.toNat % 128 + bitNat c ≤ 255 := by omega
  rw [← decide_eq_decide.2 (overflow_iff_signed hfit), ← overflowBit_eq]
  rfl

theorem ofNat_beq_zero (n : Nat) : (BitVec.ofNat 8 n == 0) = decide (n % 256 = 0) := by
  rw [beq_eq_decide, decide_eq_decide, ← BitVec.toNat_inj, BitVec.toNat_ofNat]
  rfl

theorem msb_ofNat (n : Nat) : (BitVec.ofNat 8 n).msb = decide (128 ≤ n % 256) := by
  rw [BitVec.msb_eq_decide, BitVec.toNat_ofNat]

theorem setNZ_ofNat (n : Nat) (f : Flags) :
    setNZ (BitVec.ofNat 8 n) f = { f with z := decide (n % 256 = 0), n := decide (128 ≤ n % 256) } := by
  rw [setNZ, ofNat_beq_zero, msb_ofNat]

/-! ADC and SBC. -/

theorem adcAlu_binary {f : Flags} (h : f.d = false) (a m : Byte) :
    adcAlu a m f =
      (BitVec.ofNat 8 (a.toNat + m.toNat + bitNat f.c),
        { f with
          c := decide (a.toNat + m.toNat + bitNat f.c > 255)
          z := decide ((a.toNat + m.toNat + bitNat f.c) % 256 = 0)
          v := decide (a.toInt + m.toInt + bitNat f.c < -128 ∨ 127 < a.toInt + m.toInt + bitNat f.c)
          n := decide (128 ≤ (a.toNat + m.toNat + bitNat f.c) % 256) }) := by
  simp only [adcAlu, h, addBin_eq, setNZ_ofNat, Bool.false_eq_true, if_false]

theorem adcAlu_decimal {f : Flags} (h : f.d = true) (a m : Byte) :
    adcAlu a m f =
      ((addDec a m f.c).1,
        { f with
          c := (addDec a m f.c).2.1, z := (addDec a m f.c).2.2.1, v := (addDec a m f.c).2.2.2.1,
          n := (addDec a m f.c).2.2.2.2 }) := by
  simp only [adcAlu, h, if_true]

theorem sbcAlu_binary {f : Flags} (h : f.d = false) (a m : Byte) : sbcAlu a m f = adcAlu a (~~~ m) f := by
  simp only [sbcAlu, adcAlu, h, Bool.false_eq_true, if_false]

/-- The sum with the one's complement of M is the difference with the borrow, 256 above it (R224). -/
theorem complement_sum (a m : Byte) (c : Bool) :
    ((a.toNat + (~~~ m).toNat + bitNat c : Nat) : Int) = a.toNat - m.toNat - (if c then 0 else 1) + 256 := by
  have hm := m.isLt
  rw [BitVec.toNat_not]
  cases c <;> simp [bitNat] <;> omega

theorem complement_signed_sum (a m : Byte) (c : Bool) :
    a.toInt + (~~~ m).toInt + bitNat c = a.toInt - m.toInt - (if c then 0 else 1) := by
  have hm : (~~~ m).toInt = -1 - m.toInt := by
    have := m.isLt
    simp only [BitVec.toInt_eq_toNat_cond, BitVec.toNat_not]
    omega
  rw [hm, bitNat_cast]
  split <;> omega

/-- SBC (R224) over the numbers of its operands: the flags are those of the binary difference in both modes. -/
theorem sbcAlu_eq {a m : Byte} {f : Flags} {diff signed : Int} (hdiff : diff = a.toNat - m.toNat - (if f.c then 0 else 1))
    (hsigned : signed = a.toInt - m.toInt - (if f.c then 0 else 1)) :
    sbcAlu a m f =
      (if f.d then subDec a m f.c else BitVec.ofInt 8 diff,
        { f with
          c := decide (0 ≤ diff), z := decide (diff % 256 = 0), v := decide (signed < -128 ∨ 127 < signed),
          n := decide (128 ≤ diff % 256) }) := by
  have hsum := complement_sum a m f.c
  rw [← hdiff] at hsum
  have hr : BitVec.ofNat 8 (a.toNat + (~~~ m).toNat + bitNat f.c) = BitVec.ofInt 8 diff := by
    rw [← BitVec.ofInt_natCast, hsum, BitVec.ofInt_add]
    exact BitVec.add_zero _
  have hc : a.toNat + (~~~ m).toNat + bitNat f.c > 255 ↔ 0 ≤ diff := by omega
  have hz : (a.toNat + (~~~ m).toNat + bitNat f.c) % 256 = 0 ↔ diff % 256 = 0 := by omega
  have hn : 128 ≤ (a.toNat + (~~~ m).toNat + bitNat f.c) % 256 ↔ 128 ≤ diff % 256 := by omega
  simp only [sbcAlu, addBin_eq, setNZ_ofNat, hc, hz, hn, complement_signed_sum, ← hsigned]
  rw [hr]

/-- In a calm state an instruction whose rule puts an ALU result into the accumulator completes with it. -/
theorem exec_accumulate_of_calm {i : Instr} {alu : Byte → Byte → Flags → Byte × Flags}
    (h : valueEffect i.mnemonic = some (accumulate alu)) {s : State} (hs : s.Calm) :
    ∃ m s1, operandValue i.operand s = some (m, s1) ∧
      exec i s = .next { s1 with
        a := (alu s.a m s.flags).1, flags := (alu s.a m s.flags).2, cycles := s.cycles + cycleCostOf s.cfg i.opcode } := by
  obtain ⟨m, s1, ho, hcpu, he⟩ := exec_value_of_calm h hs
  refine ⟨m, s1, ho, he.trans ?_⟩
  rw [← hcpu.a, ← hcpu.flags]
  rfl

/-- Settles O11: ADC is `adcAlu` of the operand value, in binary and in decimal mode. -/
theorem adcAddsWithCarry : Obligations.AdcAddsWithCarry := by
  refine ⟨hasForms_of_perm (by decide), fun i s hs hmn => ?_⟩
  obtain ⟨m, s1, ho, he⟩ := exec_accumulate_of_calm (alu := adcAlu) (by rw [hmn]; rfl) hs
  refine ⟨m, s1, ho, fun hd => ?_, fun hd => ?_⟩
  · rw [he, adcAlu_binary hd, bitNat_cast]
    rfl
  · rw [he, adcAlu_decimal hd]

/-- Settles O12: SBC is `sbcAlu` of the operand value. -/
theorem sbcSubtractsWithBorrow : Obligations.SbcSubtractsWithBorrow := by
  refine ⟨hasForms_of_perm (by decide), fun i s hs hmn => ?_⟩
  obtain ⟨m, s1, ho, he⟩ := exec_accumulate_of_calm (alu := sbcAlu) (by rw [hmn]; rfl) hs
  refine ⟨m, s1, ho, ?_, fun hd => sbcAlu_binary hd s.a m⟩
  rw [he, sbcAlu_eq rfl rfl]

end Sys2Proof.Machine
end

section
/-! SUPPORT. The family of 41_arithmetic.md, second part: the decimal adders (R221, R222) over the numbers of the digits, and
what they answer for packed decimal operands. -/

namespace Sys2Proof.Machine

/-! The digits of a byte. -/

theorem lowDigit_toNat (a : Byte) : (a &&& 0x0F).toNat = a.toNat % 16 := Nat.and_two_pow_sub_one_eq_mod a.toNat 4

theorem highDigit_toNat (a : Byte) : (a &&& 0xF0).toNat = a.toNat / 16 * 16 := by
  have h : a &&& (0xF0 : Byte) = a >>> 4 <<< 4 := by rw [BitVec.shiftLeft_ushiftRight]; rfl
  have ha := a.isLt
  rw [h]
  simp only [BitVec.toNat_shiftLeft, BitVec.toNat_ushiftRight, Nat.shiftRight_eq_div_pow, Nat.shiftLeft_eq]
  omega

/-! AddDec. -/

theorem decimalLow_eq (a b : Byte) (c : Bool) :
    decimalLow a b c =
      if a.toNat % 16 + b.toNat % 16 + bitNat c ≥ 10 then (a.toNat % 16 + b.toNat % 16 + bitNat c + 6) % 16 + 16
      else a.toNat % 16 + b.toNat % 16 + bitNat c := by
  simp only [decimalLow, lowDigit_toNat]

theorem decimalLow_le (a b : Byte) (c : Bool) : decimalLow a b c ≤ 31 := by
  rw [decimalLow_eq]
  split <;> omega

/-- The sum of a decimal addition before the adjust of its high digit (R221, `s` at its first assignment). -/
def decimalSum (a b : Byte) (c : Bool) : Nat := a.toNat / 16 * 16 + b.toNat / 16 * 16 + decimalLow a b c

/-- The sum after the adjust (R221, `s` at the end). -/
def decimalAdjusted (a b : Byte) (c : Bool) : Nat :=
  if decimalSum a b c ≥ 160 then decimalSum a b c + 96 else decimalSum a b c

/-- AddDec (R221) over the numbers of the digits. -/
theorem addDec_eq (a b : Byte) (c : Bool) :
    addDec a b c =
      (BitVec.ofNat 8 (decimalAdjusted a b c), decide (decimalAdjusted a b c ≥ 256),
        decide ((a.toNat + b.toNat + bitNat c) % 256 = 0),
        decide ((128 ≤ a.toNat) = (128 ≤ b.toNat) ∧ (128 ≤ a.toNat) ≠ (128 ≤ decimalSum a b c % 256)),
        decide (128 ≤ decimalSum a b c % 256)) := by
  rw [← ofNat_beq_zero, ← msb_ofNat, ← overflowBit_eq]
  simp only [addDec, addBin, highDigit_toNat]
  rfl

/-- V of AddDec is the signed sum of the high digits and the low sum out of range. -/
theorem addDec_overflow (a b : Byte) (c : Bool) :
    (addDec a b c).2.2.2.1 =
      decide ((a &&& 0xF0).toInt + (b &&& 0xF0).toInt + decimalLow a b c < -128 ∨
        127 < (a &&& 0xF0).toInt + (b &&& 0xF0).toInt + decimalLow a b c) := by
  have hlow := decimalLow_le a b c
  have hfit : (a &&& 0xF0).toNat % 128 + (b &&& 0xF0).toNat % 128 + decimalLow a b c ≤ 255 := by
    have ha := highDigit_toNat a
    have hb := highDigit_toNat b
    omega
  have hsign (n : Nat) : 128 ≤ n / 16 * 16 ↔ 128 ≤ n := by omega
  have hv := overflow_iff_signed hfit
  simp only [highDigit_toNat, hsign] at hv
  rw [addDec_eq]
  exact decide_eq_decide.2 hv

/-! SubDec. -/

/-- The difference before the adjust of its high digit (R222, `s` at its first assignment). -/
def decimalDiff (a b : Byte) (c : Bool) : Int :=
  (a.toNat / 16 * 16 : Nat) - (b.toNat / 16 * 16 : Nat) + decimalBorrowLow a b c

theorem decimalBorrowLow_eq (a b : Byte) (c : Bool) :
    decimalBorrowLow a b c =
      if ((a.toNat % 16 : Nat) : Int) - (b.toNat % 16 : Nat) + bitNat c - 1 < 0 then
        (((a.toNat % 16 : Nat) : Int) - (b.toNat % 16 : Nat) + bitNat c - 1 - 6) % 16 - 16
      else ((a.toNat % 16 : Nat) : Int) - (b.toNat % 16 : Nat) + bitNat c - 1 := by
  simp only [decimalBorrowLow, lowDigit_toNat]

/-- The difference after the adjust (R222, `s` at the end). -/
def decimalDiffAdjusted (a b : Byte) (c : Bool) : Int :=
  if decimalDiff a b c < 0 then decimalDiff a b c - 96 else decimalDiff a b c

/-- SubDec (R222) over the numbers of the digits. -/
theorem subDec_eq (a b : Byte) (c : Bool) : subDec a b c = BitVec.ofInt 8 (decimalDiffAdjusted a b c) := by
  simp only [subDec, highDigit_toNat]
  rfl

/-- Settles O13: `addDec_eq`, `addDec_overflow` and `subDec_eq` with the low digits written out. -/
theorem decimalAdjustFollowsAlgorithm : Obligations.DecimalAdjustFollowsAlgorithm := by
  refine fun a b c => ⟨⟨?_, ?_⟩, ?_⟩
  · rw [addDec_eq]
    simp only [decimalAdjusted, decimalSum, decimalLow_eq]
    rfl
  · rw [addDec_overflow, decimalLow_eq]
    rfl
  · rw [subDec_eq, decimalDiffAdjusted, decimalDiff, decimalBorrowLow_eq, bitNat_cast]

/-! Packed decimal operands. -/

/-- The low digits of a decimal sum: their sum, or 6 more where it carries into the high digit. -/
theorem decimalLow_of_bcd {a b : Byte} (ha : isBcd a) (hb : isBcd b) (c : Bool) :
    let l := a.toNat % 16 + b.toNat % 16 + bitNat c
    (l ≤ 9 ∧ decimalLow a b c = l) ∨ (10 ≤ l ∧ l ≤ 19 ∧ decimalLow a b c = l + 6) := by
  obtain ⟨hal, -⟩ := ha
  obtain ⟨hbl, -⟩ := hb
  have hc := bitNat_le_one c
  rw [decimalLow_eq]
  split <;> omega

/-- The digits of a decimal sum, its carry among them; the four cases are the carries out of the two digits. -/
theorem decimalAdjusted_of_bcd {a b : Byte} (ha : isBcd a) (hb : isBcd b) (c : Bool) :
    let n := decimalAdjusted a b c
    n < 512 ∧ n % 16 ≤ 9 ∧ n / 16 % 16 ≤ 9 ∧
      n / 256 * 100 + n / 16 % 16 * 10 + n % 16 = bcdValue a + bcdValue b + bitNat c := by
  have hah := ha.2
  have hbh := hb.2
  rw [decimalAdjusted, decimalSum, bcdValue, bcdValue]
  rcases decimalLow_of_bcd ha hb c with ⟨hl, hlow⟩ | ⟨hl, hl', hlow⟩ <;> split <;> omega

theorem addDec_of_bcd {a b : Byte} (ha : isBcd a) (hb : isBcd b) (c : Bool) :
    isBcd (addDec a b c).1 ∧
      bcdValue (addDec a b c).1 + (if (addDec a b c).2.1 then 100 else 0) = bcdValue a + bcdValue b + bitNat c := by
  obtain ⟨hn, hl, hh, hsum⟩ := decimalAdjusted_of_bcd ha hb c
  rw [← hsum, addDec_eq, isBcd, bcdValue, BitVec.toNat_ofNat]
  simp only [decide_eq_true_eq]
  split <;> omega

/-- The low digits of a decimal difference: their difference, or 6 less where it borrows from the high digit. -/
theorem decimalBorrowLow_of_bcd {a b : Byte} (ha : isBcd a) (hb : isBcd b) (c : Bool) :
    let l : Int := (a.toNat % 16 : Nat) - (b.toNat % 16 : Nat) + bitNat c - 1
    (0 ≤ l ∧ l ≤ 9 ∧ decimalBorrowLow a b c = l) ∨ (-10 ≤ l ∧ l < 0 ∧ decimalBorrowLow a b c = l - 6) := by
  obtain ⟨hal, -⟩ := ha
  obtain ⟨hbl, -⟩ := hb
  have hc := bitNat_le_one c
  rw [decimalBorrowLow_eq]
  split <;> omega

/-- The digits of a decimal difference, high and low; the four cases are the borrows of the two digits. -/
theorem decimalDiffAdjusted_of_bcd {a b : Byte} (ha : isBcd a) (hb : isBcd b) (c : Bool) :
    ∃ h l : Int, (0 ≤ h ∧ h ≤ 9) ∧ (0 ≤ l ∧ l ≤ 9) ∧ decimalDiffAdjusted a b c % 256 = h * 16 + l ∧
      h * 10 + l = ((bcdValue a : Int) - bcdValue b + bitNat c - 1) % 100 := by
  have hah := ha.2
  have hbh := hb.2
  rw [decimalDiffAdjusted, decimalDiff, bcdValue, bcdValue]
  rcases decimalBorrowLow_of_bcd ha hb c with ⟨hl, hl', hlow⟩ | ⟨hl, hl', hlow⟩ <;> split
  · exact ⟨a.toNat / 16 - b.toNat / 16 + 10, decimalBorrowLow a b c, by omega⟩
  · exact ⟨a.toNat / 16 - b.toNat / 16, decimalBorrowLow a b c, by omega⟩
  · exact ⟨a.toNat / 16 - b.toNat / 16 + 9, decimalBorrowLow a b c + 16, by omega⟩
  · exact ⟨a.toNat / 16 - b.toNat / 16 - 1, decimalBorrowLow a b c + 16, by omega⟩

theorem subDec_of_bcd {a b : Byte} (ha : isBcd a) (hb : isBcd b) (c : Bool) :
    isBcd (subDec a b c) ∧
      (bcdValue (subDec a b c) : Int) = ((bcdValue a : Int) - bcdValue b + bitNat c - 1) % 100 := by
  obtain ⟨h, l, hh, hl, hdigits, hdiff⟩ := decimalDiffAdjusted_of_bcd ha hb c
  have hr : ((subDec a b c).toNat : Int) = h * 16 + l := by
    rw [← hdigits, subDec_eq, BitVec.toNat_ofInt]
    omega
  rw [← hdiff, isBcd, bcdValue]
  omega

/-- Settles O14: the decimal sum and the decimal difference, digit by digit. -/
theorem decimalArithmeticIsRight : Obligations.DecimalArithmeticIsRight := by
  intro a b c ha hb
  obtain ⟨hadd, hsum⟩ := addDec_of_bcd ha hb c
  obtain ⟨hsub, hdiff⟩ := subDec_of_bcd ha hb c
  refine ⟨hadd, hsub, hsum, ?_⟩
  rw [hdiff, bitNat_cast]
  split <;> omega

end Sys2Proof.Machine
end

section
/-! SUPPORT. The family of 42_incdec.md: increments and decrements of memory (R240, R241) and of the index registers (R242 to
R245). All six count a byte one up or one down modulo 256. -/

namespace Sys2Proof.Machine

/-! Completion of a read-modify-write. -/

/-- In a calm state the memory form of a modifying instruction completes with one read at EA, then one write there of what the
ALU makes of the value read; the accesses change no flag. -/
theorem exec_modifyMem_of_calm {i : Instr} {alu : Byte → Flags → Byte × Flags} (h : modifyAlu i.mnemonic = some alu)
    {m : MemMode} (ho : i.operand = .mem m) {s : State} (hs : s.Calm) :
    let ea := (effectiveAddress m s).1
    let s1 := (effectiveAddress m s).2
    let r := alu (s1.peek ea) s.flags
    exec i s = .next { (s1.afterRead ea).memWrite ea r.1 with
      flags := r.2, cycles := s.cycles + cycleCostOf s.cfg i.opcode } := by
  intro ea s1 r
  have hmod : modifyMem m alu s = ((s1.afterRead ea).memWrite ea r.1).setFlags r.2 := by
    simp only [modifyMem, State.memRead, afterRead_flags, effectiveAddress_flags, ea, s1, r]
  have hcalm : (modifyMem m alu s).Calm := by
    rw [hmod]
    exact memWrite_calm (afterRead_calm (effectiveAddress_calm hs m) ea) ea r.1
  have he : exec i s = complete i.opcode (modifyMem m alu s) := by
    rcases exec_modify h s with ⟨hacc, -⟩ | ⟨m', ho', he⟩
    · cases hacc.symm.trans ho
    · cases ho'.symm.trans ho
      exact he
  rw [he, complete_calm hcalm, hmod]
  simp [State.setCycles, State.setFlags, s1]

/-! Counting. -/

/-- A byte one up or one down modulo 256, over the number of the byte. -/
def counted (up : Prop) [Decidable up] (v : Byte) : Byte := BitVec.ofNat 8 (v.toNat + if up then 1 else 255)

theorem counted_eq (up : Prop) [Decidable up] (v : Byte) : counted up v = if up then v + 1 else v - 1 := by
  rw [counted, BitVec.ofNat_add, BitVec.ofNat_toNat, BitVec.setWidth_eq]
  split
  · rfl
  · exact (BitVec.sub_eq_add_neg v 1).symm

/-- The ALU of INC and DEC (R240, R241). -/
def countAlu (up : Prop) [Decidable up] (v : Byte) (f : Flags) : Byte × Flags := (counted up v, setNZ (counted up v) f)

theorem modifyAlu_of_count {mn : Mnemonic} (h : mn = .inc ∨ mn = .dec) : modifyAlu mn = some (countAlu (mn = .inc)) := by
  unfold countAlu
  rcases h with rfl | rfl <;> simp only [counted_eq] <;> rfl

/-- INC and DEC have no accumulator form. -/
theorem operand_of_count {i : Instr} (h : i.mnemonic = .inc ∨ i.mnemonic = .dec) : ∃ m, i.operand = .mem m := by
  have hacc : ∀ f ∈ tableForms i.mnemonic, f.1 ≠ .acc := by
    rcases h with h | h <;> rw [h] <;> decide
  rcases exec_modify (modifyAlu_of_count h) State.reset with ⟨ho, -⟩ | ⟨m, ho, -⟩
  · exact absurd (congrArg Operand.mode ho) (hacc _ (form_mem_tableForms i))
  · exact ⟨m, ho⟩

/-- Settles O15: INC and DEC are the read-modify-write of `countAlu`. -/
theorem incDecMemory : Obligations.IncDecMemory := by
  refine ⟨hasForms_of_perm (by decide), hasForms_of_perm (by decide), fun i s hs hmn => ?_⟩
  obtain ⟨m, ho⟩ := operand_of_count hmn
  refine ⟨m, ho, (exec_modifyMem_of_calm (modifyAlu_of_count hmn) ho hs).trans ?_⟩
  simp only [countAlu, counted, setNZ_eq]

/-! The index registers. -/

/-- The effect of INX, INY, DEX and DEY (R242 to R245): X or Y by the mnemonic, counted up or down, and `setNZ` of it. -/
def countIndex (i : Instr) (s : State) : State :=
  let r := counted (i = .inx ∨ i = .iny) (if i = .inx ∨ i = .dex then s.x else s.y)
  { s with
    x := if i = .inx ∨ i = .dex then r else s.x
    y := if i = .iny ∨ i = .dey then r else s.y
    flags := setNZ r s.flags }

theorem exec_of_countIndex {i : Instr} (h : i ∈ [Instr.inx, .iny, .dex, .dey]) (s : State) :
    exec i s = complete i.opcode (countIndex i s) := by
  unfold countIndex
  simp only [counted_eq]
  simp only [List.mem_cons, List.not_mem_nil, or_false] at h
  rcases h with rfl | rfl | rfl | rfl <;> rfl

/-- Settles O16: the four instructions are `countIndex`, which makes no bus access. -/
theorem incDecRegisters : Obligations.IncDecRegisters := by
  refine ⟨hasForms_of_perm (by decide), hasForms_of_perm (by decide), hasForms_of_perm (by decide),
    hasForms_of_perm (by decide), fun i s hs hi => ?_⟩
  have hcalm : (countIndex i s).Calm := hs
  rw [exec_of_countIndex hi, complete_calm hcalm]
  simp only [countIndex, counted, State.setCycles, setNZ_eq]

end Sys2Proof.Machine
end

section
/-! SUPPORT. The family of 43_shift_rotate.md: ASL, LSR, ROL and ROR (R260 to R263). Each operation is written over the numbers
of its operand and of the carry, and its accumulator form completes as its memory form does. -/

namespace Sys2Proof.Machine

/-! Completion of the accumulator form. -/

/-- In a calm state the accumulator form of a modifying instruction completes with what the ALU makes of A, and makes no bus
access. -/
theorem exec_modifyAcc_of_calm {i : Instr} {alu : Byte → Flags → Byte × Flags} (h : modifyAlu i.mnemonic = some alu)
    (ho : i.operand = .acc) {s : State} (hs : s.Calm) :
    exec i s = .next { s with
      a := (alu s.a s.flags).1, flags := (alu s.a s.flags).2, cycles := s.cycles + cycleCostOf s.cfg i.opcode } := by
  have hcalm : (modifyAcc alu s).Calm := hs
  have he : exec i s = complete i.opcode (modifyAcc alu s) := by
    rcases exec_modify h s with ⟨-, he⟩ | ⟨m, hmem, -⟩
    · exact he
    · cases ho.symm.trans hmem
  rw [he, complete_calm hcalm]
  rfl

/-! The results as numbers. -/

theorem toNat_shiftLeft_one (v : Byte) : (v <<< 1).toNat = 2 * v.toNat % 256 := by
  rw [BitVec.toNat_shiftLeft, Nat.shiftLeft_eq, Nat.mul_comm]

theorem toNat_shiftRight_one (v : Byte) : (v >>> 1).toNat = v.toNat / 2 := by
  rw [BitVec.toNat_ushiftRight, Nat.shiftRight_eq_div_pow]

/-- The carry enters at bit 0, which the shift to the left leaves clear: the two have no bit in common and add up. -/
theorem toNat_rotateLeft (v : Byte) (c : Bool) :
    (v <<< 1 ||| (BitVec.ofBool c).setWidth 8).toNat = (2 * v.toNat + bitNat c) % 256 := by
  have hdisjoint : v <<< 1 &&& (BitVec.ofBool c).setWidth 8 = 0 := by
    ext i hi
    cases i <;> simp
  rw [← BitVec.add_eq_or_of_and_eq_zero _ _ hdisjoint, BitVec.toNat_add, toNat_shiftLeft_one]
  cases c <;> simp [bitNat]

/-- The carry enters at bit 7, which the shift to the right leaves clear. -/
theorem toNat_rotateRight (v : Byte) (c : Bool) :
    (v >>> 1 ||| (BitVec.ofBool c).setWidth 8 <<< 7).toNat = v.toNat / 2 + 128 * bitNat c := by
  have hhalf : v.toNat / 2 < 2 ^ 7 := by omega
  have hcarry : ((BitVec.ofBool c).setWidth 8 <<< 7).toNat = 2 ^ 7 * bitNat c := by cases c <;> rfl
  rw [BitVec.toNat_or, toNat_shiftRight_one, hcarry, Nat.or_comm, ← Nat.two_pow_add_eq_or_of_lt hhalf, Nat.add_comm]

/-! The carry out as a number. -/

theorem getLsbD_seven (v : Byte) : v.getLsbD 7 = decide (v.toNat / 128 = 1) := by
  rw [BitVec.getLsbD_last, decide_eq_decide]
  omega

theorem getLsbD_lowest (v : Byte) : v.getLsbD 0 = decide (v.toNat % 2 = 1) := Nat.testBit_zero _

/-! The operations. -/

/-- The result byte and the flags of a shift whose result and carry out are these numbers. -/
def shiftedTo (r c : Nat) (f : Flags) : Byte × Flags :=
  (BitVec.ofNat 8 r, { f with c := decide (c = 1), z := decide (r = 0), n := decide (128 ≤ r) })

/-- `C <- carry; setNZ(r)` of R260 to R263, over the numbers of the result and the carry out. -/
theorem carry_setNZ_eq_shiftedTo {x : Byte} {b : Bool} {r c : Nat} (hx : x.toNat = r) (hb : b = decide (c = 1)) (f : Flags) :
    (x, setNZ x { f with c := b }) = shiftedTo r c f := by
  have hr : r < 256 := hx ▸ x.isLt
  obtain rfl : x = BitVec.ofNat 8 r := by rw [← hx, BitVec.ofNat_toNat, BitVec.setWidth_eq]
  rw [setNZ_ofNat, Nat.mod_eq_of_lt hr, hb, shiftedTo]

/-- The operation of a shift mnemonic has the result and the carry out of `shiftedNumber`. -/
theorem modifyAlu_of_shift {mn : Mnemonic} (h : mn ∈ [Mnemonic.asl, .lsr, .rol, .ror]) :
    ∃ alu, modifyAlu mn = some alu ∧
      ∀ v f, ∃ r c, shiftedNumber mn v.toNat (bitNat f.c) = some (r, c) ∧ alu v f = shiftedTo r c f := by
  simp only [List.mem_cons, List.not_mem_nil, or_false] at h
  rcases h with rfl | rfl | rfl | rfl
  · exact ⟨aslAlu, rfl, fun v f => ⟨_, _, rfl, carry_setNZ_eq_shiftedTo (toNat_shiftLeft_one v) (getLsbD_seven v) f⟩⟩
  · exact ⟨lsrAlu, rfl, fun v f => ⟨_, _, rfl, carry_setNZ_eq_shiftedTo (toNat_shiftRight_one v) (getLsbD_lowest v) f⟩⟩
  · exact ⟨rolAlu, rfl, fun v f => ⟨_, _, rfl, carry_setNZ_eq_shiftedTo (toNat_rotateLeft v f.c) (getLsbD_seven v) f⟩⟩
  · exact ⟨rorAlu, rfl, fun v f => ⟨_, _, rfl, carry_setNZ_eq_shiftedTo (toNat_rotateRight v f.c) (getLsbD_lowest v) f⟩⟩

/-- Settles O17: a shift is the modification of A, or of the byte at EA, to the numbers `shiftedNumber` gives. -/
theorem shiftsAndRotates : Obligations.ShiftsAndRotates := by
  refine ⟨hasForms_of_perm (by decide), hasForms_of_perm (by decide), hasForms_of_perm (by decide),
    hasForms_of_perm (by decide), fun i s hs hmn => ?_⟩
  obtain ⟨alu, halu, hnumber⟩ := modifyAlu_of_shift hmn
  refine ⟨fun ho => ?_, fun m ho => ?_⟩
  · obtain ⟨r, c, hrc, heq⟩ := hnumber s.a s.flags
    refine ⟨r, c, hrc, (exec_modifyAcc_of_calm halu ho hs).trans ?_⟩
    rw [heq, shiftedTo]
  · intro ea s1
    obtain ⟨r, c, hrc, heq⟩ := hnumber (s1.peek ea) s.flags
    refine ⟨r, c, hrc, (exec_modifyMem_of_calm halu ho hs).trans ?_⟩
    rw [heq, shiftedTo]

end Sys2Proof.Machine
end

section
/-! SUPPORT. The family of 44_logic_compare.md: the logic operations (R280 to R282), the compares (R283 to R286) and BIT
(R287). Each is an effect of the operand value M, and the access to M changes no register. -/

namespace Sys2Proof.Machine

/-! AND, ORA and EOR. -/

/-- The bitwise operation of a logic mnemonic (R280 to R282) on A and M. -/
def logicByte (mn : Mnemonic) (a m : Byte) : Byte :=
  if mn = .and then a &&& m else if mn = .ora then a ||| m else a ^^^ m

/-- The ALU of the logic mnemonics: the bitwise result and `setNZ` of it. -/
def logicAlu (mn : Mnemonic) (a m : Byte) (f : Flags) : Byte × Flags := (logicByte mn a m, setNZ (logicByte mn a m) f)

theorem valueEffect_of_logic {mn : Mnemonic} (h : mn ∈ [Mnemonic.and, .ora, .eor]) :
    valueEffect mn = some (accumulate (logicAlu mn)) := by
  simp only [List.mem_cons, List.not_mem_nil, or_false] at h
  rcases h with rfl | rfl | rfl <;> rfl

/-- Settles O18: a logic operation puts the result of `logicAlu` into the accumulator. -/
theorem logicOperations : Obligations.LogicOperations := by
  refine ⟨hasForms_of_perm (by decide), hasForms_of_perm (by decide), hasForms_of_perm (by decide), fun i s hs hmn => ?_⟩
  obtain ⟨m, s1, ho, he⟩ := exec_accumulate_of_calm (valueEffect_of_logic hmn) hs
  refine ⟨m, s1, ho, he.trans ?_⟩
  simp only [logicAlu, logicByte, setNZ_eq]

/-! CMP, CPX and CPY. -/

/-- The register a compare mnemonic compares with M (R284 to R286). -/
def comparedRegister (mn : Mnemonic) (s : State) : Byte := if mn = .cmp then s.a else if mn = .cpx then s.x else s.y

/-- The effect of a compare: the flags of `compareAlu`, and no register. -/
def compareEffect (mn : Mnemonic) (m : Byte) (s : State) : State :=
  s.setFlags (compareAlu (comparedRegister mn s) m s.flags)

theorem valueEffect_of_compare {mn : Mnemonic} (h : mn ∈ [Mnemonic.cmp, .cpx, .cpy]) :
    valueEffect mn = some (compareEffect mn) := by
  simp only [List.mem_cons, List.not_mem_nil, or_false] at h
  rcases h with rfl | rfl | rfl <;> rfl

theorem msb_sub_eq (r m : Byte) : (r - m).msb = decide (128 ≤ ((r.toNat : Int) - m.toNat) % 256) := by
  have hr := r.isLt
  have hm := m.isLt
  rw [BitVec.msb_eq_decide, BitVec.toNat_sub, decide_eq_decide]
  omega

/-- The comparison of R283 over the numbers of its operands. -/
theorem compareAlu_eq (r m : Byte) (f : Flags) :
    compareAlu r m f =
      { f with
        c := decide (m.toNat ≤ r.toNat), z := decide (r.toNat = m.toNat),
        n := decide (128 ≤ ((r.toNat : Int) - m.toNat) % 256) } := by
  simp only [compareAlu, msb_sub_eq, beq_eq_decide, BitVec.toNat_inj, ge_iff_le]

/-- Settles O19: a compare sets the flags of `compareAlu`, and the access to the operand changes no register. -/
theorem comparesSetFlags : Obligations.ComparesSetFlags := by
  refine ⟨hasForms_of_perm (by decide), hasForms_of_perm (by decide), hasForms_of_perm (by decide), fun i s hs hmn => ?_⟩
  obtain ⟨m, s1, ho, hcpu, he⟩ := exec_value_of_calm (valueEffect_of_compare hmn) hs
  refine ⟨m, s1, ho, he.trans ?_⟩
  simp only [compareEffect, comparedRegister, compareAlu_eq, State.setFlags, State.setCycles, hcpu.a, hcpu.x, hcpu.y,
    hcpu.flags]

/-! BIT. -/

/-- Two bytes whose AND is 0 share no bit. -/
theorem and_beq_zero_eq (a m : Byte) :
    (a &&& m == 0) = (List.range 8).all fun k => !(a.getLsbD k && m.getLsbD k) := by
  rw [Bool.eq_iff_iff, beq_iff_eq, BitVec.eq_of_getLsbD_eq_iff]
  simp [-Bool.not_and]

/-- Bit 6 of a byte: the top bit of what bit 7 leaves. -/
theorem getLsbD_six_eq (m : Byte) : m.getLsbD 6 = decide (64 ≤ m.toNat % 128) := by
  rw [BitVec.getLsbD, Nat.testBit_eq_decide_div_mod_eq, decide_eq_decide]
  omega

/-- The flags of BIT (R287): Z over the bits of its operands, N and V over the number of M. -/
theorem bitAlu_eq (a m : Byte) (f : Flags) :
    bitAlu a m f =
      { f with
        z := (List.range 8).all fun k => !(a.getLsbD k && m.getLsbD k),
        n := decide (128 ≤ m.toNat), v := decide (64 ≤ m.toNat % 128) } := by
  rw [bitAlu, and_beq_zero_eq, BitVec.getLsbD_last, getLsbD_six_eq]

/-- Settles O20: BIT sets the flags of `bitAlu`, and the access to the operand changes neither A nor a flag. -/
theorem bitTestsMemory : Obligations.BitTestsMemory := by
  refine ⟨hasForms_of_perm (by decide), fun i s hs hmn => ?_⟩
  obtain ⟨m, s1, ho, hcpu, he⟩ := exec_value_of_calm (eff := bitTest) (by rw [hmn]; rfl) hs
  refine ⟨m, s1, ho, he.trans ?_⟩
  simp only [bitTest, bitAlu_eq, State.setFlags, State.setCycles, hcpu.a, hcpu.flags]

end Sys2Proof.Machine
end

section
/-! SUPPORT. The family of 45_branch.md: the conditional branches (R300 to R308). Each is `branch` on a condition over the
flags, and it writes no register but PC. -/

namespace Sys2Proof.Machine

/-- The instructions with a displacement are the branches (R301 to R308): the condition of each, and its listed cost. -/
theorem plainEffect_of_rel {i : Instr} {d : Byte} (h : i.operand = .rel d) :
    ∃ cond : Flags → Bool, plainEffect i.mnemonic = some (onRel cond) ∧
      (∀ f, branchCondition i.mnemonic f = some (cond f)) ∧ listedCost i.mnemonic i.operand.mode = 2 := by
  cases i <;> cases h <;> exact ⟨_, rfl, fun _ => rfl, rfl⟩

/-- `Branch(cond)` of R300 over the numbers of PC and of the displacement. -/
theorem branch_eq (cond : Bool) (d : Byte) (s : State) :
    branch cond d s = { s with pc := if cond then BitVec.ofInt 16 (s.pc.toNat + d.toInt) else s.pc } := by
  rw [← word_add_sext_eq_ofInt]
  cases cond <;> rfl

/-- In a calm state an instruction whose effect is a branch completes with that branch, which makes no bus access. -/
theorem exec_branch_of_calm {i : Instr} {cond : Flags → Bool} (h : plainEffect i.mnemonic = some (onRel cond)) {d : Byte}
    (ho : i.operand = .rel d) {s : State} (hs : s.Calm) :
    exec i s = .next { s with
      pc := if cond s.flags then BitVec.ofInt 16 (s.pc.toNat + d.toInt) else s.pc
      cycles := s.cycles + cycleCostOf s.cfg i.opcode } := by
  have hcalm : (branch (cond s.flags) d s).Calm := by
    rw [branch_eq]
    exact hs
  have he : exec i s = complete i.opcode (branch (cond s.flags) d s) := by
    rw [exec_plain h, ho, onRel]
  rw [he, complete_calm hcalm, branch_eq, State.setCycles]

/-- Settles O21: an instruction with a displacement is `branch` on the condition of its mnemonic, and is listed with cost 2. -/
theorem branchesFollowTheirFlag : Obligations.BranchesFollowTheirFlag := by
  refine ⟨hasForms_of_perm (by decide), hasForms_of_perm (by decide), hasForms_of_perm (by decide),
    hasForms_of_perm (by decide), hasForms_of_perm (by decide), hasForms_of_perm (by decide),
    hasForms_of_perm (by decide), hasForms_of_perm (by decide), fun i s d hs ho => ?_⟩
  obtain ⟨cond, heff, hcond, hlisted⟩ := plainEffect_of_rel ho
  obtain ⟨-, -, hcost⟩ := everyInstructionCompletes
  refine ⟨cond s.flags, hcond s.flags, exec_branch_of_calm heff ho hs, fun hcfg => ?_⟩
  rw [hcost i s.cfg hcfg, hlisted]
  rfl

end Sys2Proof.Machine
end

section
/-! SUPPORT. The family of 46_transfer_stack.md: the register transfers (R320 to R325), the pushes (R326, R327) and the pulls
(R328, R329). Each has an effect that reads no operand, and in a calm state it completes with that effect. -/

namespace Sys2Proof.Machine

/-! Completion with an effect that reads no operand. -/

/-- In a calm state an instruction with an effect that reads no operand completes with it. -/
theorem exec_plain_of_calm {i : Instr} {eff : Operand → State → State} (h : plainEffect i.mnemonic = some eff) {s : State}
    (hs : s.Calm) : exec i s = .next ((eff i.operand s).setCycles (s.cycles + cycleCostOf s.cfg i.opcode)) := by
  have hcalm : (eff i.operand s).Calm := plainEffect_accessClosed (calm_accessClosed _ _) h hs
  have hcfg : (eff i.operand s).cfg = s.cfg := plainEffect_accessClosed (sameCfg_accessClosed _ _) h
  have hcyc : (eff i.operand s).cycles = s.cycles := plainEffect_keeps h _ s .cycles (cycles_notMem_mnemonicWrites _)
  rw [exec_plain h, complete_calm hcalm, hcfg, hcyc]

/-! The transfers. -/

/-- The register a transfer copies. -/
def transferSource (i : Instr) (s : State) : Byte :=
  if i = .tax ∨ i = .tay then s.a else if i = .txa ∨ i = .txs then s.x else if i = .tya then s.y else s.sp

/-- The effect of a transfer of v (R320 to R325): one register by the instruction, and `setNZ(v)` except by TXS. -/
def transfer (i : Instr) (v : Byte) (s : State) : State :=
  { s with
    a := if i = .txa ∨ i = .tya then v else s.a
    x := if i = .tax ∨ i = .tsx then v else s.x
    y := if i = .tay then v else s.y
    sp := if i = .txs then v else s.sp
    flags := if i = .txs then s.flags else setNZ v s.flags }

theorem plainEffect_of_transfer {i : Instr} (h : i ∈ [Instr.tax, .txa, .tay, .tya, .tsx, .txs]) :
    plainEffect i.mnemonic = some fun _ s => transfer i (transferSource i s) s := by
  simp only [List.mem_cons, List.not_mem_nil, or_false] at h
  rcases h with rfl | rfl | rfl | rfl | rfl | rfl <;> rfl

/-- Settles O22: a transfer copies `transferSource`, and makes no bus access. -/
theorem transfersCopyRegisters : Obligations.TransfersCopyRegisters := by
  refine ⟨hasForms_of_perm (by decide), hasForms_of_perm (by decide), hasForms_of_perm (by decide),
    hasForms_of_perm (by decide), hasForms_of_perm (by decide), hasForms_of_perm (by decide), fun i s hs hi => ?_⟩
  rw [exec_plain_of_calm (plainEffect_of_transfer hi) hs]
  simp only [transfer, transferSource, State.setCycles, setNZ_eq]

end Sys2Proof.Machine
end

section
/-! SUPPORT. The family of 46_transfer_stack.md, second part: the stack. A push writes the slot of SP and a pull reads the slot
above it; the status byte packs and unpacks the six flags (10_state.md R37 to R39). -/

namespace Sys2Proof.Machine

/-! The stack slots as numbers. -/

theorem stackAddr_eq_ofNat (sp : Byte) : stackAddr sp = BitVec.ofNat 16 (256 + sp.toNat) := by
  have hlow : sp.toNat < 2 ^ 8 := sp.isLt
  apply BitVec.eq_of_toNat_eq
  rw [stackAddr, BitVec.toNat_or, zext_toNat, BitVec.toNat_ofNat, Nat.mod_eq_of_lt (by omega)]
  exact (Nat.two_pow_add_eq_or_of_lt hlow 1).symm

theorem byte_succ_eq_ofNat (b : Byte) : b + 1 = BitVec.ofNat 8 (b.toNat + 1) := (counted_eq True b).symm

theorem byte_pred_eq_ofNat (b : Byte) : b - 1 = BitVec.ofNat 8 (b.toNat + 255) := (counted_eq False b).symm

/-! The status byte. -/

theorem toNat_append_eq {n m : Nat} (x : BitVec n) (y : BitVec m) : (x ++ y).toNat = x.toNat * 2 ^ m + y.toNat := by
  rw [BitVec.toNat_append, ← Nat.shiftLeft_add_eq_or_of_lt y.isLt, Nat.shiftLeft_eq]

theorem ite_zero_eq_mul_toNat (b : Bool) (n : Nat) : (if b then n else 0) = n * b.toNat := by
  cases b <;> simp

/-- PackP (10_state.md R37) as a number: each flag counts the weight of its bit. -/
theorem packP_eq_ofNat (bits54 : BitVec 2) (f : Flags) :
    packP bits54 f = BitVec.ofNat 8 ((if f.n then 128 else 0) + (if f.v then 64 else 0) + bits54.toNat * 16 +
      (if f.d then 8 else 0) + (if f.i then 4 else 0) + (if f.z then 2 else 0) + (if f.c then 1 else 0)) := by
  have hlt := (packP bits54 f).isLt
  apply BitVec.eq_of_toNat_eq
  simp only [packP, toNat_append_eq, BitVec.toNat_ofBool, ite_zero_eq_mul_toNat, BitVec.toNat_ofNat] at hlt ⊢
  omega

/-- UnpackP takes back the flags that PackP packed (10_state.md R37). -/
theorem unpackP_packP (bits54 : BitVec 2) (f : Flags) : unpackP (packP bits54 f) = f := by
  simp only [unpackP, packP, BitVec.getLsbD_append, BitVec.getLsbD_ofBool]
  rfl

/-! The pushes. -/

/-- The byte that PHA or PHP pushes (R326, R327). -/
def pushedByte (i : Instr) (s : State) : Byte := if i = .pha then s.a else packP s.cfg.phpBits54 s.flags

theorem plainEffect_of_push {i : Instr} (h : i = .pha ∨ i = .php) :
    plainEffect i.mnemonic = some fun _ s => push (pushedByte i s) s := by
  rcases h with rfl | rfl <;> rfl

/-- In a calm state PHA and PHP complete with one bus write at the slot of SP, then SP less one. -/
theorem exec_push_of_calm {i : Instr} (h : i = .pha ∨ i = .php) {s : State} (hs : s.Calm) :
    exec i s = .next (((s.memWrite (stackAddr s.sp) (pushedByte i s)).setSp (s.sp - 1)).setCycles
      (s.cycles + cycleCostOf s.cfg i.opcode)) := by
  rw [exec_plain_of_calm (plainEffect_of_push h) hs, push_eq]

/-- What a pull after a push needs of the state the push leaves. -/
theorem calm_sp_of_exec_push {i : Instr} (h : i = .pha ∨ i = .php) {s t : State} (hs : s.Calm) (he : exec i s = .next t) :
    t.Calm ∧ t.sp = s.sp - 1 := by
  rw [exec_push_of_calm h hs] at he
  obtain rfl := Host.Outcome.next.inj he
  have hcalm : (s.memWrite (stackAddr s.sp) (pushedByte i s)).Calm := memWrite_calm hs _ _
  exact ⟨hcalm, rfl⟩

/-- Settles O23: a push is one bus write of `pushedByte`, with the slot, SP and the status byte as numbers. -/
theorem pushesWriteStackSlot : Obligations.PushesWriteStackSlot := by
  refine ⟨hasForms_of_perm (by decide), hasForms_of_perm (by decide), fun _ => rfl, fun i s hs hi => ?_⟩
  rw [exec_push_of_calm hi hs]
  simp only [pushedByte, packP_eq_ofNat, stackAddr_eq_ofNat, byte_pred_eq_ofNat, State.setSp, State.setCycles]

/-! The pulls. -/

/-- What PLA and PLP do with the byte pulled (R328, R329): A with `setNZ`, or all six flags. -/
def takePulled (i : Instr) (v : Byte) (s : State) : State :=
  { s with
    a := if i = .pla then v else s.a
    flags := if i = .pla then setNZ v s.flags else unpackP v }

theorem plainEffect_of_pull {i : Instr} (h : i = .pla ∨ i = .plp) :
    plainEffect i.mnemonic = some fun _ s => takePulled i (pull s).1 (pull s).2 := by
  rcases h with rfl | rfl <;> rfl

/-- In a calm state PLA and PLP complete with SP one more and one bus read at its slot. -/
theorem exec_pull_of_calm {i : Instr} (h : i = .pla ∨ i = .plp) {s : State} (hs : s.Calm) :
    exec i s = .next ((takePulled i (s.peek (stackAddr (s.sp + 1))) ((s.afterRead (stackAddr (s.sp + 1))).setSp
      (s.sp + 1))).setCycles (s.cycles + cycleCostOf s.cfg i.opcode)) := by
  rw [exec_plain_of_calm (plainEffect_of_pull h) hs, pull_eq]

/-- A pull with SP one below a slot takes the byte in the slot and gives SP back. -/
theorem exec_pull_of_slot {i : Instr} (h : i = .pla ∨ i = .plp) {t : State} (ht : t.Calm) {sp : Byte}
    (hsp : t.sp = sp - 1) :
    ∃ u, exec i t = .next u ∧ u.sp = sp ∧ (i = .pla → u.a = t.peek (stackAddr sp)) ∧
      (i = .plp → u.flags = unpackP (t.peek (stackAddr sp))) := by
  have hback : t.sp + 1 = sp := by rw [hsp, BitVec.sub_add_cancel]
  refine ⟨_, exec_pull_of_calm h ht, hback, ?_, ?_⟩ <;> rintro rfl <;> rw [hback] <;> rfl

/-- Settles O24: a pull is one bus read at the slot above SP; after a push that slot is the one pushed to, and UnpackP inverts
PackP. -/
theorem pullsReadStackSlot : Obligations.PullsReadStackSlot := by
  refine ⟨hasForms_of_perm (by decide), hasForms_of_perm (by decide), fun i s hs hi => ?_, fun s t v f hs => ?_⟩
  · rw [exec_pull_of_calm hi hs]
    simp only [takePulled, stackAddr_eq_ofNat, byte_succ_eq_ofNat, State.setSp, State.setCycles, setNZ_eq, unpackP,
      afterRead_a, afterRead_flags]
  · rw [← stackAddr_eq_ofNat]
    refine ⟨fun he hslot => ?_, fun he hslot => ?_⟩
    · obtain ⟨ht, hsp⟩ := calm_sp_of_exec_push (.inl rfl) hs he
      have hcalm : (t.setA v).Calm := ht
      obtain ⟨u, hu, husp, hua, -⟩ := exec_pull_of_slot (.inl rfl) hcalm hsp
      exact ⟨u, hu, (hua rfl).trans hslot, husp⟩
    · obtain ⟨ht, hsp⟩ := calm_sp_of_exec_push (.inr rfl) hs he
      have hcalm : (t.setFlags f).Calm := ht
      obtain ⟨u, hu, husp, -, huf⟩ := exec_pull_of_slot (.inr rfl) hcalm hsp
      refine ⟨u, hu, ?_, husp⟩
      rw [huf rfl, setFlags_peek, hslot, unpackP_packP]

end Sys2Proof.Machine
end

section
/-! SUPPORT. The family of 47_control_flags.md: JMP (R340), JSR and RTS (R341, R342), the flag instructions and NOP (R343 to
R350). In a calm state each completes with its effect, the pushed and pulled bytes and their slots as numbers. -/

namespace Sys2Proof.Machine

/-! Bytes and words as numbers. -/

theorem lowByte_eq_ofNat (w : Word) : lowByte w = BitVec.ofNat 8 w.toNat :=
  BitVec.eq_of_toNat_eq (lowByte_toNat w)

theorem highByte_eq_ofNat (w : Word) : highByte w = BitVec.ofNat 8 (w.toNat / 256) := by
  have hlt : w.toNat < 65536 := w.isLt
  apply BitVec.eq_of_toNat_eq
  rw [highByte_toNat, BitVec.toNat_ofNat]
  omega

theorem word_succ_toNat (w : Word) : (w + 1).toNat = (w.toNat + 1) % 65536 := BitVec.toNat_add w 1

theorem word_pred_toNat (w : Word) : (w - 1).toNat = (w.toNat + 65535) % 65536 := by
  rw [Nat.add_comm]
  exact BitVec.toNat_sub w 1

theorem byte_add_two_eq_ofNat (b : Byte) : b + 1 + 1 = BitVec.ofNat 8 (b.toNat + 2) := by bv_omega

theorem byte_add_three_eq_ofNat (b : Byte) : b + 1 + 1 + 1 = BitVec.ofNat 8 (b.toNat + 3) := by bv_omega

theorem byte_sub_two_eq_ofNat (b : Byte) : b - 1 - 1 = BitVec.ofNat 8 (b.toNat + 254) := by bv_omega

theorem byte_sub_three_eq_ofNat (b : Byte) : b - 1 - 1 - 1 = BitVec.ofNat 8 (b.toNat + 253) := by bv_omega

/-- The slot of a number modulo 256 (10_state.md R34). -/
theorem stackAddr_ofNat (n : Nat) : stackAddr (BitVec.ofNat 8 n) = BitVec.ofNat 16 (256 + n % 256) :=
  stackAddr_eq_ofNat (BitVec.ofNat 8 n)

/-! JMP. -/

/-- The indirect form as its two bus reads, low byte first, then PC (30_encoding.md R122, 47_control_flags.md R340). -/
theorem jumpTo_ind (w : Word) (s : State) :
    let hi := indirectHigh s.cfg.jmpIndPageWrap w
    jumpTo (.ind w) s =
      ((s.afterRead w).afterRead hi).setPc (joinBytes ((s.afterRead w).peek hi) (s.peek w)) := rfl

/-- Settles O25: JMP abs writes PC alone, and JMP ind is the two bus reads of `jumpTo_ind`, with addresses as numbers. -/
theorem jumpsSetPc : Obligations.JumpsSetPc := by
  refine ⟨hasForms_of_perm (by decide), fun s w hs => ⟨exec_plain_of_calm (i := .jmpAbs w) rfl hs, ?_⟩⟩
  have heff : exec (.jmpInd w) s = .next ((jumpTo (.ind w) s).setCycles (s.cycles + cycleCostOf s.cfg 0x6C)) :=
    exec_plain_of_calm (i := .jmpInd w) rfl hs
  rw [heff, jumpTo_ind, indirectHigh_eq_ofNat, joinBytes_eq_ofNat]
  simp only [State.setPc, State.setCycles]

/-! JSR. -/

/-- JSR as its two bus writes, then SP and PC (47_control_flags.md R341). -/
theorem callSubroutine_eq (w : Word) (s : State) :
    callSubroutine w s = (((s.memWrite (stackAddr s.sp) (highByte (s.pc - 1))).memWrite (stackAddr (s.sp - 1))
      (lowByte (s.pc - 1))).setSp (s.sp - 1 - 1)).setPc w := by
  rw [callSubroutine, pushWord_eq]

/-- Settles O26: JSR is the two bus writes of `callSubroutine_eq`, with slots, bytes and SP as numbers. -/
theorem jsrPushesReturnAddress : Obligations.JsrPushesReturnAddress := by
  refine ⟨hasForms_of_perm (by decide), fun s w hs => ?_⟩
  have heff : exec (.jsr w) s = .next ((callSubroutine w s).setCycles (s.cycles + cycleCostOf s.cfg 0x20)) :=
    exec_plain_of_calm (i := .jsr w) rfl hs
  rw [heff, callSubroutine_eq, byte_sub_two_eq_ofNat, byte_pred_eq_ofNat, stackAddr_ofNat, stackAddr_eq_ofNat,
    highByte_eq_ofNat, lowByte_eq_ofNat, word_pred_toNat]
  simp only [State.setSp, State.setPc, State.setCycles]

/-! RTS. -/

/-- RTS as its two bus reads, then SP and PC (47_control_flags.md R342). -/
theorem returnSubroutine_eq (s : State) :
    let lo := stackAddr (s.sp + 1)
    let hi := stackAddr (s.sp + 1 + 1)
    returnSubroutine s = (((s.afterRead lo).afterRead hi).setSp (s.sp + 1 + 1)).setPc
      (joinBytes ((s.afterRead lo).peek hi) (s.peek lo) + 1) := by
  rw [returnSubroutine, pullWord_eq]

/-- RTS with SP two below a slot goes to the address whose predecessor that slot and the one below hold, provided its two reads
return. -/
theorem exec_rts_of_slots {s : State} {sp : Byte} {back : Word} (hsp : s.sp = sp - 1 - 1)
    (hreturns : ((s.afterRead (stackAddr (sp - 1))).afterRead (stackAddr sp)).diverged = false)
    (hlo : s.peek (stackAddr (sp - 1)) = lowByte (back - 1))
    (hhi : (s.afterRead (stackAddr (sp - 1))).peek (stackAddr sp) = highByte (back - 1)) :
    ∃ t, exec .rts s = .next t ∧ t.pc = back ∧ t.sp = sp := by
  have hslot : s.sp + 1 = sp - 1 := by rw [hsp, BitVec.sub_add_cancel]
  have heff : returnSubroutine s =
      (((s.afterRead (stackAddr (sp - 1))).afterRead (stackAddr sp)).setSp sp).setPc back := by
    rw [returnSubroutine_eq, hslot, BitVec.sub_add_cancel, hlo, hhi, joinBytes_highByte_lowByte, BitVec.sub_add_cancel]
  have he : exec .rts s = complete 0x60 (returnSubroutine s) := exec_plain (i := .rts) rfl s
  rw [he, heff]
  exact ⟨_, finish_of_not_diverged hreturns, rfl, rfl⟩

/-- Settles O27: RTS is the two bus reads of `returnSubroutine_eq`, with slots, SP and PC as numbers; in a calm state they
return. -/
theorem rtsPullsReturnAddress : Obligations.RtsPullsReturnAddress := by
  refine ⟨hasForms_of_perm (by decide), fun s hs => ?_, fun s back sp hs hsp hlo hhi => ?_⟩
  · have heff : exec .rts s = .next ((returnSubroutine s).setCycles (s.cycles + cycleCostOf s.cfg 0x60)) :=
      exec_plain_of_calm (i := .rts) rfl hs
    rw [heff, returnSubroutine_eq, byte_add_two_eq_ofNat, byte_succ_eq_ofNat, stackAddr_ofNat, stackAddr_ofNat,
      word_succ_eq_ofNat, joinBytes_toNat]
    simp only [State.setSp, State.setPc, State.setCycles]
  · rw [← stackAddr_ofNat, ← byte_pred_eq_ofNat] at hlo hhi
    rw [← stackAddr_eq_ofNat] at hhi
    have hsub : sp - 2 = sp - 1 - 1 := by bv_omega
    exact exec_rts_of_slots (hsp.trans hsub) (afterRead_calm (afterRead_calm hs _) _).1 hlo hhi

/-! The flag instructions and NOP. -/

/-- The flags after a flag instruction (R343 to R349): the named flag set or cleared; any other instruction keeps all. -/
def writeFlag (i : Instr) (f : Flags) : Flags :=
  { f with
    c := if i = .sec then true else if i = .clc then false else f.c
    d := if i = .sed then true else if i = .cld then false else f.d
    i := if i = .sei then true else if i = .cli then false else f.i
    v := if i = .clv then false else f.v }

theorem plainEffect_of_flag {i : Instr} (h : i ∈ [Instr.sec, .sed, .sei, .clc, .cld, .cli, .clv, .nop]) :
    plainEffect i.mnemonic = some fun _ s => s.setFlags (writeFlag i s.flags) := by
  simp only [List.mem_cons, List.not_mem_nil, or_false] at h
  rcases h with rfl | rfl | rfl | rfl | rfl | rfl | rfl | rfl <;> rfl

/-- Settles O28: the effect is `writeFlag`, which makes no bus access; NOP is listed with cost 1. -/
theorem flagInstructionsWriteOneFlag : Obligations.FlagInstructionsWriteOneFlag := by
  refine ⟨hasForms_of_perm (by decide), hasForms_of_perm (by decide), hasForms_of_perm (by decide),
    hasForms_of_perm (by decide), hasForms_of_perm (by decide), hasForms_of_perm (by decide), hasForms_of_perm (by decide),
    hasForms_of_perm (by decide), fun i s hs hi => ⟨exec_plain_of_calm (plainEffect_of_flag hi) hs, ?_⟩⟩
  rintro hcfg rfl
  obtain ⟨-, -, hcost⟩ := everyInstructionCompletes
  exact hcost .nop s.cfg hcfg

end Sys2Proof.Machine
end

section
/-! SUPPORT. The family of 47_control_flags.md, second part: BRK and RTI (R361, R362), under both settings of
`ENABLE_BRK_RTI`. -/

namespace Sys2Proof.Machine

/-! BRK and RTI with `ENABLE_BRK_RTI` false and true. -/

/-- Without `ENABLE_BRK_RTI` the outcome is the fault at the opcode's own address (60_exceptions.md R401). -/
theorem brkRti_disabled {s : State} (h : s.cfg.enableBrkRti = false) (hs : s.Calm) (op : Byte) (effect : State → State) :
    brkRti op effect s = .next (raiseUnimplemented op (s.pc - 1) s) := by
  have hcalm : (raiseUnimplemented op (s.pc - 1) s).Calm := hs
  rw [brkRti, h]
  exact finish_calm hcalm

/-- With `ENABLE_BRK_RTI` an effect made of bus accesses and register writes other than `cycles` completes in a calm state. -/
theorem brkRti_enabled {s : State} (h : s.cfg.enableBrkRti = true) (hs : s.Calm) (op : Byte) {effect : State → State}
    {reads stored : List Word} (heff : ∀ R, AccessClosed reads stored R → R s (effect s))
    (hcyc : (effect s).cycles = s.cycles) :
    brkRti op effect s = .next ((effect s).setCycles (s.cycles + cycleCostOf s.cfg op)) := by
  have hcalm : (effect s).Calm := heff _ (calm_accessClosed _ _) hs
  have hcfg : (effect s).cfg = s.cfg := heff _ (sameCfg_accessClosed _ _)
  rw [brkRti, if_pos h, complete_calm hcalm, hcfg, hcyc]

/-! BRK. -/

/-- The status byte of BRK (47_control_flags.md R361) is PackP with bits 5 and 4 set, whatever PHP pushes there. -/
theorem packBreak_eq_packP (bits54 : BitVec 2) (f : Flags) : packBreak bits54 f = packP 3 f := by
  have hmask : (0x30 : BitVec (1 + 1 + 2 + 1 + 1 + 1 + 1)) = 0#1 ++ 0#1 ++ 3#2 ++ 0#1 ++ 0#1 ++ 0#1 ++ 0#1 := rfl
  have hbits : bits54 ||| 3#2 = 3#2 := BitVec.or_allOnes
  -- the OR of two appends at the width written as the sum of their parts
  show HOr.hOr (α := BitVec (1 + 1 + 2 + 1 + 1 + 1 + 1)) (packP bits54 f) 0x30 = packP 3 f
  simp only [packP, hmask, BitVec.or_append, BitVec.or_zero, hbits]
  rfl

/-- The same byte as a number. -/
theorem packBreak_eq_ofNat (bits54 : BitVec 2) (f : Flags) :
    packBreak bits54 f = BitVec.ofNat 8 ((if f.n then 128 else 0) + (if f.v then 64 else 0) + 48 +
      (if f.d then 8 else 0) + (if f.i then 4 else 0) + (if f.z then 2 else 0) + (if f.c then 1 else 0)) :=
  (packBreak_eq_packP bits54 f).trans (packP_eq_ofNat 3 f)

theorem exec_brk_enabled {s : State} (h : s.cfg.enableBrkRti = true) (hs : s.Calm) :
    exec .brk s = .next ((enterBreak s).setCycles (s.cycles + cycleCostOf s.cfg 0x00)) :=
  brkRti_enabled h hs 0x00 (fun _ hR => enterBreak_accessClosed hR (List.Subset.refl _) (List.Subset.refl _))
    (enterBreak_keeps s .cycles (cycles_notMem_mnemonicWrites _))

/-- Settles O29: disabled, BRK is the fault of R401; enabled, it is the three bus writes and two bus reads of `enterBreak_eq`, with
slots, bytes, SP and PC as numbers. -/
theorem brkPushesAndVectors : Obligations.BrkPushesAndVectors := by
  refine ⟨hasForms_of_perm (by decide), fun s hs => ⟨fun h => brkRti_disabled h hs 0x00 enterBreak, fun h => ?_⟩⟩
  rw [exec_brk_enabled h hs, enterBreak_eq, byte_sub_three_eq_ofNat, byte_sub_two_eq_ofNat, byte_pred_eq_ofNat,
    stackAddr_ofNat, stackAddr_ofNat, stackAddr_eq_ofNat, highByte_eq_ofNat, lowByte_eq_ofNat, word_succ_toNat,
    packBreak_eq_ofNat, joinBytes_eq_ofNat]
  simp only [State.setSp, State.setFlags, State.setPc, State.setCycles]

/-! RTI. -/

theorem exec_rti_enabled {s : State} (h : s.cfg.enableBrkRti = true) (hs : s.Calm) :
    exec .rti s = .next ((returnFromBreak s).setCycles (s.cycles + cycleCostOf s.cfg 0x40)) :=
  brkRti_enabled (stored := []) h hs 0x40 (fun _ hR => returnFromBreak_accessClosed hR (List.Subset.refl _))
    (returnFromBreak_keeps s .cycles (cycles_notMem_mnemonicWrites _))

/-- Settles O30: disabled, RTI is the fault of R401; enabled, it is the three bus reads of `returnFromBreak_eq`, with slots, SP
and PC as numbers. -/
theorem rtiPullsStatusAndPc : Obligations.RtiPullsStatusAndPc := by
  refine ⟨hasForms_of_perm (by decide), fun s hs => ⟨fun h => brkRti_disabled h hs 0x40 returnFromBreak, fun h => ?_⟩⟩
  rw [exec_rti_enabled h hs, returnFromBreak_eq, byte_add_three_eq_ofNat, byte_add_two_eq_ofNat, byte_succ_eq_ofNat,
    stackAddr_ofNat, stackAddr_ofNat, stackAddr_ofNat, joinBytes_eq_ofNat]
  simp only [unpackP, State.setSp, State.setFlags, State.setPc, State.setCycles]

end Sys2Proof.Machine
end

section
/-! SUPPORT. The family of 47_control_flags.md, third part: RTS after JSR and RTI after BRK come back. The call or the break
leaves bytes in the slots of the stack page, different slots being different bytes, and the return reads the same slots. -/

namespace Sys2Proof.Machine

/-! The slots of the stack page where the page has bytes of its own (20_memory.md R71). -/

theorem index_stackAddr {s : State} (h : 512 ≤ s.cfg.memSize) (sp : Byte) : s.index (stackAddr sp) = 256 + sp.toNat := by
  have hsp : sp.toNat < 256 := sp.isLt
  rw [State.index, stackAddr_eq_ofNat, BitVec.toNat_ofNat, Nat.mod_eq_of_lt (by omega), Nat.mod_eq_of_lt (by omega)]

/-- A slot keeps its byte when the slot of another stack pointer is written. -/
theorem peek_poke_slot_ne {s : State} (h : 512 ≤ s.cfg.memSize) {a b : Byte} (hab : a ≠ b) (v : Byte) :
    (s.poke (stackAddr b) v).peek (stackAddr a) = s.peek (stackAddr a) := by
  have hne : s.index (stackAddr a) ≠ s.index (stackAddr b) := by
    rw [index_stackAddr h, index_stackAddr h]
    exact fun he => hab (BitVec.eq_of_toNat_eq (Nat.add_left_cancel he))
  exact peek_poke_ne s _ _ v hne

/-- The array after a word is pushed at a stack pointer, high byte first (20_memory.md R90). -/
def State.pokeWord (s : State) (sp : Byte) (w : Word) : State :=
  (s.poke (stackAddr sp) (highByte w)).poke (stackAddr (sp - 1)) (lowByte w)

theorem pokeWord_low (s : State) (sp : Byte) (w : Word) : (s.pokeWord sp w).peek (stackAddr (sp - 1)) = lowByte w :=
  peek_poke_self _ _ _

theorem pokeWord_high {s : State} (h : 512 ≤ s.cfg.memSize) (sp : Byte) (w : Word) :
    (s.pokeWord sp w).peek (stackAddr sp) = highByte w := by
  have hne : sp ≠ sp - 1 := by bv_omega
  exact (peek_poke_slot_ne (s := s.poke _ _) h hne _).trans (peek_poke_self _ _ _)

/-- Where no handler runs for its two slots, the bus writes of a pushed word are its array writes. -/
theorem memWrite_word_of_quiet {s : State} {sp : Byte} (hhi : s.quietWrite (stackAddr sp))
    (hlo : s.quietWrite (stackAddr (sp - 1))) (w : Word) :
    (s.memWrite (stackAddr sp) (highByte w)).memWrite (stackAddr (sp - 1)) (lowByte w) = s.pokeWord sp w := by
  rw [memWrite_of_quiet _ hhi]
  exact memWrite_of_quiet (s := s.poke _ _) _ hlo

/-- Where no handler runs for its accesses, an instruction keeps the parameters and registers no handler, so an address that was
quiet to read stays quiet. -/
theorem exec_of_quiet_keeps {i : Instr} {s t : State} (hquiet : QuietFor i s) (h : exec i s = .next t) :
    t.diverged = false ∧ t.cfg = s.cfg ∧ ∀ a, s.quietRead a → t.quietRead a := by
  obtain ⟨-, -, hread, -, hsup, hcfg, -⟩ := memoryFrameWithoutHandlers i s t hquiet h
  refine ⟨exec_next_not_diverged h, hcfg, fun a ha => ?_⟩
  simpa only [State.quietRead, State.watchers, hread, hsup] using ha

/-! JSR, then RTS. -/

/-- Where no handler runs for its slots, JSR leaves the return address less one in them, with SP two below. -/
theorem exec_jsr_of_quiet {s t : State} {w : Word} (hhi : s.quietWrite (stackAddr s.sp))
    (hlo : s.quietWrite (stackAddr (s.sp - 1))) (h : exec (.jsr w) s = .next t) :
    t.sp = s.sp - 1 - 1 ∧ ∀ a, t.peek a = (s.pokeWord s.sp (s.pc - 1)).peek a := by
  have he : exec (.jsr w) s = complete 0x20 (callSubroutine w s) := exec_plain (i := .jsr w) rfl s
  rw [he, callSubroutine_eq, memWrite_word_of_quiet hhi hlo] at h
  obtain ⟨rfl, -⟩ := complete_eq_next h
  exact ⟨by simp only [setCycles_sp, setPc_sp, setSp_sp], fun a => by simp only [setCycles_peek, setPc_peek, setSp_peek]⟩

theorem exec_rts_after_jsr {s t : State} {w : Word} (hsize : 512 ≤ s.cfg.memSize) (hquiet : QuietFor (.jsr w) s)
    (hslots : ∀ a ∈ storedAddrs (.jsr w) s, s.quietRead a) (h : exec (.jsr w) s = .next t) (pc' : Word) :
    ∃ u, exec .rts (t.setPc pc') = .next u ∧ u.pc = s.pc ∧ u.sp = s.sp := by
  obtain ⟨hd, -, hreads⟩ := exec_of_quiet_keeps hquiet h
  have hstored : storedAddrs (.jsr w) s = [stackAddr s.sp, stackAddr (s.sp - 1)] := storedAddrs_of_jsr rfl s
  obtain ⟨-, hstores⟩ := hquiet
  simp only [hstored, List.forall_mem_cons] at hstores hslots
  obtain ⟨hwhi, hwlo, -⟩ := hstores
  obtain ⟨hrhi, hrlo, -⟩ := hslots
  obtain ⟨hsp, hpeek⟩ := exec_jsr_of_quiet hwhi hwlo h
  have hlo : (t.setPc pc').afterRead (stackAddr (s.sp - 1)) = t.setPc pc' := afterRead_of_quiet (hreads _ hrlo)
  have hhi : (t.setPc pc').afterRead (stackAddr s.sp) = t.setPc pc' := afterRead_of_quiet (hreads _ hrhi)
  refine exec_rts_of_slots hsp ?_ ((hpeek _).trans (pokeWord_low s s.sp _)) ?_
  · rw [hlo, hhi]
    exact hd
  · rw [hlo]
    exact (hpeek _).trans (pokeWord_high hsize s.sp _)

/-! BRK, then RTI. -/

/-- The array after BRK's three pushes (47_control_flags.md R361). -/
def State.pokeBreak (s : State) : State :=
  (s.pokeWord s.sp (s.pc + 1)).poke (stackAddr (s.sp - 1 - 1)) (packBreak s.cfg.phpBits54 s.flags)

theorem quietRead_pokeBreak {s : State} {a : Word} (h : s.quietRead a) : s.pokeBreak.quietRead a := by
  simpa only [State.quietRead, State.pokeBreak, State.pokeWord, poke_suppress, poke_watchers] using h

/-- Where no handler runs for its accesses, BRK leaves the status byte and the return address in its slots, with SP three
below. -/
theorem exec_brk_of_quiet {s t : State} (hb : s.cfg.enableBrkRti = true) (hquiet : QuietFor .brk s)
    (h : exec .brk s = .next t) : t.sp = s.sp - 1 - 1 - 1 ∧ ∀ a, t.peek a = s.pokeBreak.peek a := by
  obtain ⟨hreads, hstores⟩ := hquiet
  simp only [storedAddrs_brk hb, readAddrs_brk hb, List.forall_mem_cons] at hstores hreads
  obtain ⟨hwhi, hwlo, hwp, -⟩ := hstores
  obtain ⟨hvlo, hvhi, -⟩ := hreads
  have hstatus : (s.pokeWord s.sp (s.pc + 1)).memWrite (stackAddr (s.sp - 1 - 1)) (packBreak s.cfg.phpBits54 s.flags) =
      s.pokeBreak := memWrite_of_quiet (s := s.pokeWord _ _) _ hwp
  have hlo : s.pokeBreak.afterRead 0xFFFE = s.pokeBreak := afterRead_of_quiet (quietRead_pokeBreak hvlo)
  have hhi : s.pokeBreak.afterRead 0xFFFF = s.pokeBreak := afterRead_of_quiet (quietRead_pokeBreak hvhi)
  have he : exec .brk s = complete 0x00 (enterBreak s) := if_pos hb
  rw [he, enterBreak_eq, memWrite_word_of_quiet hwhi hwlo, hstatus, hlo, hhi] at h
  obtain ⟨rfl, -⟩ := complete_eq_next h
  exact ⟨by simp only [setCycles_sp, setPc_sp, setFlags_sp, setSp_sp],
    fun a => by simp only [setCycles_peek, setPc_peek, setFlags_peek, setSp_peek]⟩

/-- RTI with SP three below a slot takes the flags and the address its slots hold, where no handler runs for its reads. -/
theorem exec_rti_of_slots {s : State} (hb : s.cfg.enableBrkRti = true) (hd : s.diverged = false) {sp : Byte}
    (hsp : s.sp = sp - 1 - 1 - 1) (hp : s.quietRead (stackAddr (sp - 1 - 1))) (hlo : s.quietRead (stackAddr (sp - 1)))
    (hhi : s.quietRead (stackAddr sp)) :
    ∃ u, exec .rti s = .next u ∧ u.pc = joinBytes (s.peek (stackAddr sp)) (s.peek (stackAddr (sp - 1))) ∧ u.sp = sp ∧
      u.flags = unpackP (s.peek (stackAddr (sp - 1 - 1))) := by
  have hslot : s.sp + 1 = sp - 1 - 1 := by rw [hsp, BitVec.sub_add_cancel]
  have he : exec .rti s = complete 0x40 (returnFromBreak s) := if_pos hb
  rw [he, returnFromBreak_eq, hslot, BitVec.sub_add_cancel, BitVec.sub_add_cancel, afterRead_of_quiet hp,
    afterRead_of_quiet hlo, afterRead_of_quiet hhi]
  exact ⟨_, finish_of_not_diverged hd, rfl, rfl, rfl⟩

/-- The bytes RTI reads after BRK, where the stack page has bytes of its own. -/
theorem pokeBreak_slots {s : State} (hsize : 512 ≤ s.cfg.memSize) :
    s.pokeBreak.peek (stackAddr (s.sp - 1 - 1)) = packBreak s.cfg.phpBits54 s.flags ∧
      s.pokeBreak.peek (stackAddr (s.sp - 1)) = lowByte (s.pc + 1) ∧
      s.pokeBreak.peek (stackAddr s.sp) = highByte (s.pc + 1) := by
  have hlo : s.sp - 1 ≠ s.sp - 1 - 1 := by bv_omega
  have hhi : s.sp ≠ s.sp - 1 - 1 := by bv_omega
  exact ⟨peek_poke_self _ _ _, (peek_poke_slot_ne (s := s.pokeWord _ _) hsize hlo _).trans (pokeWord_low ..),
    (peek_poke_slot_ne (s := s.pokeWord _ _) hsize hhi _).trans (pokeWord_high hsize ..)⟩

theorem exec_rti_after_brk {s t : State} (hsize : 512 ≤ s.cfg.memSize) (hb : s.cfg.enableBrkRti = true)
    (hquiet : QuietFor .brk s) (hslots : ∀ a ∈ storedAddrs .brk s, s.quietRead a) (h : exec .brk s = .next t) (pc' : Word) :
    ∃ u, exec .rti (t.setPc pc') = .next u ∧ u.pc = s.pc + 1 ∧ u.sp = s.sp ∧ u.flags = s.flags := by
  obtain ⟨hd, hcfg, hreads⟩ := exec_of_quiet_keeps hquiet h
  obtain ⟨hsp, hpeek⟩ := exec_brk_of_quiet hb hquiet h
  simp only [storedAddrs_brk hb, List.forall_mem_cons] at hslots
  obtain ⟨hrhi, hrlo, hrp, -⟩ := hslots
  obtain ⟨hp, hlo, hhi⟩ := pokeBreak_slots hsize
  obtain ⟨u, hu, hupc, husp, huf⟩ := exec_rti_of_slots (s := t.setPc pc') (hcfg ▸ hb) hd hsp (hreads _ hrp) (hreads _ hrlo)
    (hreads _ hrhi)
  refine ⟨u, hu, ?_, husp, ?_⟩
  · rw [hupc, setPc_peek, setPc_peek, hpeek, hpeek, hlo, hhi, joinBytes_highByte_lowByte]
  · rw [huf, setPc_peek, hpeek, hp, packBreak_eq_packP, unpackP_packP]

/-- Settles O31: the bytes JSR and BRK leave in their slots are what RTS and RTI read there. -/
theorem returnComesBackAfterCall : Obligations.ReturnComesBackAfterCall := fun _ _ _ pc' hsize =>
  ⟨fun hquiet hslots h => exec_rts_after_jsr hsize hquiet hslots h pc',
    fun hb hquiet hslots h => exec_rti_after_brk hsize hb hquiet hslots h pc'⟩

end Sys2Proof.Machine
end

section
/-! SUPPORT. The family of 60_exceptions.md, first part: what a host command can do (R430). Every command is made of the
updates a handler is made of and of a few more, so a relation those keep holds between the states before and after it
(`HostClosed`); with every step, it holds across every action (`ActionClosed`). From it: the invariant stays, the refusal
mark is never taken back (R405), and no command but CPU `reset()` and `evokeRunAtAddress` touches the CPU (R435). -/

namespace Sys2Proof.Machine

/-- A relation kept by every update a host command is made of, but for the two commands that write CPU registers. -/
structure HostClosed (R : State → State → Prop) : Prop extends BusClosed R where
  run : ∀ s, R s (s.setRunning true)
  load : ∀ {bytes start s t}, loadBulk bytes start s = .ok t → R s t
  busReset : ∀ s, R s (busReset s)

/-- Such a relation that these two commands (60_exceptions.md R435) keep too. -/
structure CpuCommandsKeep (R : State → State → Prop) : Prop where
  cpuReset : ∀ s, R s (cpuReset s)
  evoke : ∀ a s, R s (evokeRunAtAddress a s)

section closed
variable {R : State → State → Prop} (hR : HostClosed R)
include hR

theorem directAccess_closed {access : State → HostReply × State} {s : State} (h : R s (access s).2) :
    R s (directAccess access s).2 := by
  unfold directAccess
  split
  · exact hR.refused s
  · exact h

theorem command_loadBulk_closed (bytes : List Byte) (start : Word) (s : State) :
    R s (command (.loadBulk bytes start) s).2 := by
  refine directAccess_closed hR ?_
  split
  · next h => exact hR.load h
  · exact hR.refl s

theorem command_dumpRange_closed (first last : Word) (s : State) : R s (command (.dumpRange first last) s).2 := by
  refine directAccess_closed hR ?_
  split <;> exact hR.refl s

theorem processInputChar_closed (c : Byte) (s : State) : R s (processInputChar c s) := by
  unfold processInputChar
  split
  · exact hR.refl s
  · exact hR.trans (hR.poke s _ _) (hR.trans (hR.poke _ _ _) (hR.latches _ _))

/-- Such a relation holds between the states before and after a command; where the command may be or contain one of the two
that write CPU registers, those keep it. -/
theorem command_closed {c : HostCommand} (hcpu : c.sparesCpu = false → CpuCommandsKeep R) (s : State) :
    R s (command c s).2 := by
  induction c generalizing s with
  | cpuReset => exact (hcpu rfl).cpuReset s
  | evokeRunAtAddress a => exact (hcpu rfl).evoke a s
  | busReset => exact hR.busReset s
  | piaReset => exact hR.latches s _
  | loadBulk bytes start => exact command_loadBulk_closed hR bytes start s
  | dumpRange first last => exact command_dumpRange_closed hR first last s
  | readByte a => exact directAccess_closed hR (afterRead_closed hR.toBusClosed s a)
  | writeByte a v => exact directAccess_closed hR (memWrite_closed hR.toBusClosed s a v)
  | readShort a => exact directAccess_closed hR (readPair_closed hR.toBusClosed s _ _)
  | readShortZeroPage z => exact directAccess_closed hR (readPair_closed hR.toBusClosed s _ _)
  | addReadWatch a h => exact hR.addRead s a h
  | addWriteWatch a h => exact hR.addWrite s a h
  | run => exact hR.run s
  | stop => exact hR.stop s
  | processInputChar c => exact processInputChar_closed hR c s
  | suppressed c ih => exact hR.suppressed s _ (ih hcpu _)
  | seq c d ihc ihd =>
    have hc : c.sparesCpu = false → CpuCommandsKeep R := fun h => hcpu (by simp [HostCommand.sparesCpu, h])
    have hd : d.sparesCpu = false → CpuCommandsKeep R := fun h => hcpu (by simp [HostCommand.sparesCpu, h])
    exact hR.trans (ihc hc s) (ihd hd _)

end closed

/-- A relation kept by every command and every step, and by the mark of a batch that never returns. -/
structure ActionClosed (R : State → State → Prop) : Prop where
  refl : ∀ s, R s s
  trans : ∀ {s t u}, R s t → R t u → R s u
  command : ∀ c s, R s (command c s).2
  step : ∀ {s t}, step s = .next t → R s t
  diverged : ∀ s, R s s.markDiverged

/-- The ways a batch goes on from a look at `running`: stopped; stuck in a step that never returns; at an end with a fault; or
on to the next turn. -/
theorem batchWith_look_cases (turns : List Turn) (s : State) :
    (s.running = false ∧ batchWith ([] :: turns) s = (.stopped, s)) ∨
      batchWith ([] :: turns) s = (.stuck, s.markDiverged) ∨
      ∃ t, step s = .next t ∧
        ((s.faultCount < t.faultCount ∧ batchWith ([] :: turns) s = (.fault, t)) ∨
          batchWith ([] :: turns) s = batchWith turns t) := by
  rw [batchWith]
  simp only [giveAll]
  split
  · split
    · next t ht =>
      refine .inr (.inr ⟨t, ht, ?_⟩)
      split
      · next hf => exact .inl ⟨hf, rfl⟩
      · exact .inr rfl
    · exact .inr (.inl rfl)
    · exact .inr (.inl rfl)
  · next hrun => exact .inl ⟨Bool.not_eq_true _ ▸ hrun, rfl⟩

/-- The commands of a turn come before its look at `running` (60_exceptions.md R433). -/
theorem batchWith_cons (cs : Turn) (turns : List Turn) (s : State) :
    batchWith (cs :: turns) s = match giveAll cs s with
      | some s1 => batchWith ([] :: turns) s1
      | none => (.stuck, s.markDiverged) := by
  rw [batchWith]
  cases giveAll cs s <;> rfl

section closed
variable {R : State → State → Prop} (hR : ActionClosed R)
include hR

theorem giveAll_closed {cs : List HostCommand} {s t : State} (h : giveAll cs s = some t) : R s t := by
  induction cs generalizing s with
  | nil => exact Option.some.inj h ▸ hR.refl s
  | cons c cs ih =>
    rw [giveAll] at h
    split at h
    · next s1 hs1 =>
      obtain ⟨rfl, -⟩ := finish_eq_next hs1
      exact hR.trans (hR.command c s) (ih h)
    · cases h
    · cases h

theorem batchWith_closed (turns : List Turn) (s : State) : R s (batchWith turns s).2 := by
  induction turns generalizing s with
  | nil => exact hR.refl s
  | cons cs turns ih =>
    rw [batchWith_cons]
    split
    · next s1 hs1 =>
      refine hR.trans (giveAll_closed hR hs1) ?_
      rcases batchWith_look_cases turns s1 with ⟨-, h⟩ | h | ⟨t, ht, ⟨-, h⟩ | h⟩ <;> rw [h]
      · exact hR.refl s1
      · exact hR.diverged s1
      · exact hR.step ht
      · exact hR.trans (hR.step ht) (ih t)
    · exact hR.diverged s

/-- Such a relation holds between the states before and after any action. -/
theorem act_closed {x : Action} {s t : State} (h : act x s = .next t) : R s t := by
  cases x with
  | step => exact hR.step h
  | host c => exact (finish_eq_next h).1 ▸ hR.command c s
  | batch turns => exact (finish_eq_next h).1 ▸ batchWith_closed hR turns s

end closed

/-! CPU `reset()` (70_reset_and_hazards.md R460). -/

/-- The state whose vector CPU `reset()` reads: "The registers are written before the vector is read" (R460). -/
def State.resetRegisters (s : State) : State :=
  { s with a := 0, x := 0, y := 0, sp := s.cfg.spReset, flags := s.cfg.flagsReset, cycles := 0 }

theorem cpuReset_eq (s : State) :
    cpuReset s = ((s.resetRegisters.readShort s.cfg.resetVector).2.setPc
      (s.resetRegisters.readShort s.cfg.resetVector).1).setWritten (.every true) := rfl

/-! The invariant. -/

/-- The marks may change to any among which `cycles` is set only where every one is. -/
theorem inv_setWritten {s : State} (h : Inv s) {w : Written} (hw : w.cycles = true → w = .every true) :
    Inv (s.setWritten w) := { h with written := hw }

theorem inv_setMem {s : State} (h : Inv s) {m : List Host.Cell} (hm : Memory.wf m)
    (hrange : ∀ c ∈ m, c.1 < s.cfg.memSize) : Inv (s.setMem m) := { h with mem := hm, range := hrange }

/-- A bulk load of a range of the array keeps it canonical and inside its size. -/
theorem storeBytes_wf {size k : Nat} {bytes : List Byte} {m : List Host.Cell} (hfit : k + bytes.length ≤ size)
    (hm : Memory.wf m) (hrange : ∀ c ∈ m, c.1 < size) :
    Memory.wf (storeBytes k bytes m) ∧ ∀ c ∈ storeBytes k bytes m, c.1 < size := by
  induction bytes generalizing k m with
  | nil => exact ⟨hm, hrange⟩
  | cons b bytes ih =>
    rw [List.length_cons] at hfit
    refine ih (by omega) (updateAt_canonical k b hm) fun c hc => ?_
    rcases mem_updateAt hc with rfl | hc
    · exact (by omega : k < size)
    · exact hrange c hc

/-- A bulk load that succeeds stores its bytes inside the array (20_memory.md R83). -/
theorem loadBulk_eq_ok {bytes : List Byte} {start : Word} {s t : State} (h : loadBulk bytes start s = .ok t) :
    start.toNat + bytes.length ≤ s.cfg.memSize ∧ t = s.setMem (storeBytes start.toNat bytes s.mem) := by
  unfold loadBulk at h
  split at h
  · cases h
  · next hfit => exact ⟨Nat.le_of_not_lt hfit, (Except.ok.inj h).symm⟩

theorem inv_hostClosed : HostClosed (fun s t => Inv s → Inv t) where
  toBusClosed := inv_closed
  run _ h := inv_congr h rfl rfl rfl rfl rfl
  load hload h := by
    obtain ⟨hfit, rfl⟩ := loadBulk_eq_ok hload
    obtain ⟨hm, hrange⟩ := storeBytes_wf hfit h.mem h.range
    exact inv_setMem h hm hrange
  busReset _ h := inv_setMem h ⟨List.Pairwise.nil, nofun⟩ nofun

theorem inv_cpuCommandsKeep : CpuCommandsKeep (fun s t => Inv s → Inv t) where
  cpuReset s h := by
    have hread := readPair_closed inv_closed s.resetRegisters s.cfg.resetVector (s.cfg.resetVector + 1)
      (inv_congr h rfl rfl rfl rfl rfl)
    rw [cpuReset_eq]
    exact inv_setWritten (inv_stepClosed.pc _ _ hread) fun _ => rfl
  evoke a s h := inv_congr (inv_settled (regs := [.pc]) h h (by decide)) rfl rfl rfl rfl rfl

theorem inv_actionClosed : ActionClosed (fun s t => Inv s → Inv t) where
  refl _ := id
  trans h k := k ∘ h
  command _ s := command_closed inv_hostClosed (fun _ => inv_cpuCommandsKeep) s
  step := step_closed inv_stepClosed
  diverged := inv_closed.diverged

theorem act_next_not_diverged {x : Action} {s t : State} (h : act x s = .next t) : t.diverged = false := by
  cases x with
  | step => exact step_next_not_diverged h
  | host c => exact finish_next_not_diverged h
  | batch turns => exact finish_next_not_diverged h

/-- Settles O40: the invariant is kept by every command and every step, and an action that ends in a next state has not
diverged. -/
theorem actionsKeepInv : Obligations.ActionsKeepInv := fun _ _ _ hs h =>
  ⟨act_closed inv_actionClosed h hs, act_next_not_diverged h⟩

/-! The refusal mark (60_exceptions.md R405). -/

theorem directAccess_of_running {s : State} (h : s.running = true) (access : State → HostReply × State) :
    directAccess access s = (.refused, s.markRefused) := if_pos h

/-- The refusal mark is never taken back by a handler or a command. -/
theorem refusalMark_hostClosed : HostClosed (fun s t => s.refusalMark = true → t.refusalMark = true) where
  refl _ := id
  trans h k := k ∘ h
  poke _ _ _ := id
  latches _ _ := id
  emit _ _ _ := id
  stop _ := id
  addRead _ _ _ := id
  addWrite _ _ _ := id
  refused _ _ := rfl
  diverged _ := id
  suppressed _ _ h := h
  run _ := id
  load hload h := by
    obtain ⟨-, rfl⟩ := loadBulk_eq_ok hload
    exact h
  busReset _ := id

theorem refusalMark_cpuCommandsKeep : CpuCommandsKeep (fun s t => s.refusalMark = true → t.refusalMark = true) where
  cpuReset s := readPair_closed refusalMark_hostClosed.toBusClosed s.resetRegisters s.cfg.resetVector
    (s.cfg.resetVector + 1)
  evoke _ _ := id

theorem refusalMark_actionClosed : ActionClosed (fun s t => s.refusalMark = true → t.refusalMark = true) where
  refl _ := id
  trans h k := k ∘ h
  command _ s := command_closed refusalMark_hostClosed (fun _ => refusalMark_cpuCommandsKeep) s
  step h := (step_closed stepKeeps_stepClosed h).refusalMark
  diverged _ := id

/-- Settles O55: each of the six commands is a `directAccess`, and the mark is kept by every command and every step. -/
theorem hostAccessWhileRunningIsRefused : Obligations.HostAccessWhileRunningIsRefused := by
  refine ⟨fun s c hrun hc => ?_, fun x s t h => act_closed refusalMark_actionClosed h⟩
  rcases hc with ⟨bytes, a, rfl⟩ | ⟨a, b, rfl⟩ | ⟨a, rfl⟩ | ⟨a, v, rfl⟩ | ⟨a, rfl⟩ | ⟨z, rfl⟩ <;>
    exact directAccess_of_running hrun _

/-! The CPU registers (60_exceptions.md R435). -/

theorem sameCpu_hostClosed : HostClosed SameCpu where
  toBusClosed := sameCpu_closed
  run _ := ⟨rfl, rfl, rfl, rfl, rfl, rfl, rfl, rfl, rfl, rfl⟩
  load hload := by
    obtain ⟨-, rfl⟩ := loadBulk_eq_ok hload
    exact ⟨rfl, rfl, rfl, rfl, rfl, rfl, rfl, rfl, rfl, rfl⟩
  busReset _ := ⟨rfl, rfl, rfl, rfl, rfl, rfl, rfl, rfl, rfl, rfl⟩

/-- Settles O58: `SameCpu` holds across every command without the two, and the observers report each register under its
mark. -/
theorem hostCommandsSpareTheCpu : Obligations.HostCommandsSpareTheCpu := by
  refine ⟨fun c s hc => ?_, fun _ _ => ⟨rfl, rfl, rfl, rfl, rfl, rfl, rfl, rfl, rfl, rfl, rfl, rfl, rfl, rfl⟩⟩
  have h : SameCpu s (command c s).2 := command_closed sameCpu_hostClosed (fun hn => absurd hc (by simp [hn])) s
  exact ⟨h.a, h.x, h.y, h.sp, h.pc, h.flags, h.cycles⟩

end Sys2Proof.Machine
end

section
/-! SUPPORT. The family of 60_exceptions.md, second part: the two instruction faults. An unmapped opcode is taken before
anything but the fetch (R401); with `cycles` unwritten every instruction ends in the fault of R404, at the state
`firstUnwritten` names or after its whole effect (R406). -/

namespace Sys2Proof.Machine

/-! `UnimplementedOpcode` (60_exceptions.md R401). -/

/-- None of the bytes of R128 is the opcode of a row. -/
theorem opcodeTable_misses_unmapped : (opcodeTable.all fun r => !unmappedBytes.contains r.opcode) = true := by decide

theorem rowOf_of_unmapped {op : Byte} (h : op ∈ unmappedBytes) : rowOf op = none := by
  refine List.find?_eq_none.2 fun r hr heq => ?_
  have hmiss := List.all_eq_true.1 opcodeTable_misses_unmapped r hr
  simp [beq_iff_eq.1 heq, h] at hmiss

/-- The bytes that decode to no format (30_encoding.md R128, R131). -/
theorem decodeOpcode_of_unmapped {e : Bool} {op : Byte}
    (h : op ∈ unmappedBytes ∨ (e = false ∧ (op = 0x00 ∨ op = 0x40))) : decodeOpcode e op = none := by
  rcases h with h | ⟨rfl, rfl | rfl⟩
  · rw [decodeOpcode, rowOf_of_unmapped h, Option.map_none, ite_self]
  · rfl
  · rfl

/-- A step that fetches an unmapped byte ends in the fault, after the handlers of the fetch. -/
theorem step_of_unmapped {s : State} (hs : s.Calm) (hrun : s.running = true) (hpc : s.written.pc = true)
    (h : decodeOpcode s.cfg.enableBrkRti (s.peek s.pc) = none) :
    step s = .next (raiseUnimplemented (s.peek s.pc) s.pc (s.afterRead s.pc)) := by
  have hcalm : (raiseUnimplemented (s.peek s.pc) s.pc (s.afterRead s.pc)).Calm := afterRead_calm hs s.pc
  rw [running_step hrun hpc, h]
  exact finish_calm hcalm

/-- Such a step leaves PC at the byte and appends the fault after the events of the fetch. -/
theorem step_of_unmapped_trace {s : State} (hs : s.Calm) (hrun : s.running = true) (hpc : s.written.pc = true)
    (h : decodeOpcode s.cfg.enableBrkRti (s.peek s.pc) = none) :
    ∃ u events, step s = .next u ∧ u.pc = s.pc ∧ u.running = false ∧
      u.trace = s.trace ++ events ++ [.fault .unimplementedOpcode (some (s.peek s.pc)) (some s.pc)] := by
  obtain ⟨events, hevents⟩ := (afterRead_closed stepKeeps_closed s s.pc).trace
  exact ⟨_, events, step_of_unmapped hs hrun hpc h, rfl, rfl, by rw [hevents]; rfl⟩

/-- The same number of Fault events in both states. -/
def SameFaults (s t : State) : Prop := t.faultCount = s.faultCount

theorem faultCount_emit (s : State) (e : Event) :
    (s.emit e).faultCount = s.faultCount + if e.isFault then 1 else 0 := by
  simp [State.faultCount, State.emit, List.countP_append, List.countP_singleton]

/-- No handler emits a Fault event (20_memory.md R79). -/
theorem sameFaults_closed : BusClosed SameFaults where
  refl _ := rfl
  trans h k := k.trans h
  poke _ _ _ := rfl
  latches _ _ := rfl
  emit s e he := (faultCount_emit s e).trans (by simp [he])
  stop _ := rfl
  addRead _ _ _ := rfl
  addWrite _ _ _ := rfl
  refused _ := rfl
  diverged _ := rfl
  suppressed _ _ h := h

theorem faultCount_raiseUnimplemented (op : Byte) (pc0 : Word) (s : State) :
    (raiseUnimplemented op pc0 s).faultCount = s.faultCount + 1 := faultCount_emit _ _

theorem faultCount_raiseUndefinedRead (op : Option Byte) (pc0 : Option Word) (s : State) :
    (raiseUndefinedRead op pc0 s).faultCount = s.faultCount + 1 := faultCount_emit _ _

/-- A batch whose first step faults ends there with Fault (60_exceptions.md R433). -/
theorem batch_of_faulting_step {s t : State} (hrun : s.running = true) (h : step s = .next t)
    (hf : s.faultCount < t.faultCount) (n : Nat) : batch (n + 1) s = (.fault, t) := by
  rw [batch, List.replicate_succ, batchWith]
  simp only [giveAll, hrun, if_true, h, hf]

/-- Settles O6: the step is `step_of_unmapped`, now and after another `run()`. -/
theorem unmappedOpcodeRaises : Obligations.UnmappedOpcodeRaises := by
  intro s n hs hrun hpc hop
  have hdec := decodeOpcode_of_unmapped hop
  have hstep := step_of_unmapped hs hrun hpc hdec
  have hcpu := afterRead_sameCpu s s.pc
  have hcount : s.faultCount < (raiseUnimplemented (s.peek s.pc) s.pc (s.afterRead s.pc)).faultCount := by
    rw [faultCount_raiseUnimplemented, show (s.afterRead s.pc).faultCount = s.faultCount from
      afterRead_closed sameFaults_closed s s.pc]
    exact Nat.lt_succ_self _
  set t := raiseUnimplemented (s.peek s.pc) s.pc (s.afterRead s.pc)
  refine ⟨t, hstep, batch_of_faulting_step hrun hstep hcount n, rfl, hcpu.a, hcpu.x, hcpu.y, hcpu.sp, hcpu.flags,
    hcpu.cycles, hcpu.cfg, fun hpeek => ?_⟩
  obtain ⟨u, events, hu, hupc, hurun, hutrace⟩ := step_of_unmapped_trace (s := run t) (afterRead_calm hs s.pc) rfl
    ((congrArg Written.pc hcpu.written).trans hpc) (by rw [← hpeek, ← hcpu.cfg] at hdec; exact hdec)
  exact ⟨u, events, hu, hupc, hurun, hutrace.trans (by rw [← hpeek]; rfl)⟩

end Sys2Proof.Machine
end

section
/-! SUPPORT. The family of 60_exceptions.md, third part: `UndefinedRegisterRead` (R404, R406). With `cycles` unwritten every
instruction ends in this fault: at its first read of an unwritten register, which `firstUnwritten` finds, or after its whole
effect. -/

namespace Sys2Proof.Machine

/-! Where the first unwritten read is, phase by phase (60_exceptions.md R406). -/

section phases
variable {i : Instr} {s : State}

section mem
variable {m : MemMode} (ho : i.operand = .mem m)
include ho

theorem firstUnwritten_index (h : s.written.covers (indexReads m) = false) : firstUnwritten i s = some s := by
  simp [firstUnwritten, ho, h]

theorem firstUnwritten_lateIndex (h : s.written.covers (indexReads m) = true)
    (hlate : s.written.covers (lateIndexReads m) = false) : firstUnwritten i s = some (effectiveAddress m s).2 := by
  simp [firstUnwritten, ho, h, hlate]

theorem firstUnwritten_rule (h : s.written.covers (indexReads m) = true)
    (hlate : s.written.covers (lateIndexReads m) = true) (hrule : s.written.covers (ruleReads i.mnemonic) = false) :
    firstUnwritten i s = some (if readsOperandByte i.mnemonic
      then (effectiveAddress m s).2.afterRead (effectiveAddress m s).1 else (effectiveAddress m s).2) := by
  simp [firstUnwritten, ho, h, hlate, hrule]

theorem firstUnwritten_mem_none (h : s.written.covers (indexReads m) = true)
    (hlate : s.written.covers (lateIndexReads m) = true) (hrule : s.written.covers (ruleReads i.mnemonic) = true) :
    firstUnwritten i s = none := by
  simp [firstUnwritten, ho, h, hlate, hrule]

end mem

theorem firstUnwritten_acc (ho : i.operand = .acc) (h : s.written.covers (.a :: ruleReads i.mnemonic) = false) :
    firstUnwritten i s = some s := by
  simp [firstUnwritten, ho, h]

theorem covers_cons (w : Written) (r : Reg) (regs : List Reg) : w.covers (r :: regs) = (w.has r && w.covers regs) := rfl

/-- The forms without a memory operand read their registers before any access. -/
theorem firstUnwritten_of_no_mem (ho : ∀ m, i.operand ≠ .mem m) (h : s.written.covers (ruleReads i.mnemonic) = false) :
    firstUnwritten i s = some s := by
  cases hi : i.operand with
  | mem m => exact absurd hi (ho m)
  | acc => exact firstUnwritten_acc hi (by rw [covers_cons, h, Bool.and_false])
  | imp | imm | ind | rel => simp [firstUnwritten, hi, h]

theorem readsOperandByte_of_store : ∀ mn ∈ [Mnemonic.sta, .stx, .sty], readsOperandByte mn = false := by decide

theorem readsOperandByte_of_value : ∀ mn ∈ [Mnemonic.adc, .sbc, .and, .ora, .eor, .cmp, .cpx, .cpy, .bit, .rol, .ror],
    readsOperandByte mn = true := by decide

theorem ruleReads_of_load : ∀ mn ∈ [Mnemonic.lda, .ldx, .ldy, .inc, .dec, .asl, .lsr], ruleReads mn = [] := by decide

theorem no_indexReads {m : MemMode} (h : m.mode = .zp ∨ m.mode = .abs) : indexReads m = [] ∧ lateIndexReads m = [] := by
  cases m with
  | zp | abs => exact ⟨rfl, rfl⟩
  | zpx | zpy | absx | absy | indx | indy => rcases h with h | h <;> cases h

/-- The loads, INC, DEC, ASL and LSR on `zp` and `abs` read no register but `cycles`. -/
theorem firstUnwritten_readsNone (hmn : i.mnemonic ∈ [Mnemonic.lda, .ldx, .ldy, .inc, .dec, .asl, .lsr]) {m : MemMode}
    (ho : i.operand = .mem m) (hmode : m.mode = .zp ∨ m.mode = .abs) : firstUnwritten i s = none := by
  obtain ⟨hindex, hlate⟩ := no_indexReads hmode
  exact firstUnwritten_mem_none ho (by rw [hindex]; rfl) (by rw [hlate]; rfl) (by rw [ruleReads_of_load _ hmn]; rfl)

theorem eq_jsr (h : i.mnemonic = .jsr) : ∃ w, i = .jsr w := by
  cases i <;> cases h
  exact ⟨_, rfl⟩

/-- JSR reads SP before its first push (47_control_flags.md R341). -/
theorem firstUnwritten_jsr (h : i.mnemonic = .jsr) (hrule : s.written.covers (ruleReads i.mnemonic) = false) :
    firstUnwritten i s = some s := by
  obtain ⟨w, rfl⟩ := eq_jsr h
  exact firstUnwritten_rule (m := .abs w) rfl rfl rfl hrule

/-- BRK reads the flags after the return address is pushed (47_control_flags.md R361). -/
theorem firstUnwritten_brk (hsp : s.written.sp = true) (hflags : s.written.covers flagRegs = false) :
    firstUnwritten .brk s = some (pushWord (s.pc + 1) s) := by
  have hsp' : s.written.covers (ruleReads .brk) = true := (Bool.and_true _).trans hsp
  exact (if_pos hsp').trans (if_pos ⟨rfl, hflags⟩)

/-- The state at the first unwritten read is the one before the instruction's accesses, after the pointer reads, after the
read of the operand byte, or after the push of a return address. -/
theorem firstUnwritten_cases {t : State} (h : firstUnwritten i s = some t) :
    t = s ∨ (∃ m, t = (effectiveAddress m s).2 ∨ t = (effectiveAddress m s).2.afterRead (effectiveAddress m s).1) ∨
      ∃ w, t = pushWord w s := by
  unfold firstUnwritten at h
  split at h
  · next m _ =>
    dsimp only at h
    split_ifs at h <;> obtain rfl := Option.some.inj h
    · exact .inr (.inl ⟨m, .inr rfl⟩)
    · exact .inr (.inl ⟨m, .inl rfl⟩)
    · exact .inr (.inl ⟨m, .inl rfl⟩)
    · exact .inl rfl
  · split_ifs at h
    exact .inl (Option.some.inj h).symm
  all_goals
    split_ifs at h
    · exact .inr (.inr ⟨_, (Option.some.inj h).symm⟩)
    · exact .inl (Option.some.inj h).symm

/-- The accesses before that read return in a calm state, and leave `cycles` alone. -/
theorem firstUnwritten_calm {t : State} (hs : s.Calm) (h : firstUnwritten i s = some t) :
    t.Calm ∧ t.cycles = s.cycles := by
  rcases firstUnwritten_cases h with rfl | ⟨m, rfl | rfl⟩ | ⟨w, rfl⟩
  · exact ⟨hs, rfl⟩
  · exact ⟨effectiveAddress_calm hs m, by simp⟩
  · exact ⟨afterRead_calm (effectiveAddress_calm hs m) _, by simp⟩
  · exact ⟨pushWord_calm hs w, by simp [pushWord_eq]⟩

end phases

/-! The fault, in a calm state with `cycles` unwritten. -/

/-- In a calm state every instruction ends in a next state, BRK and RTI without `ENABLE_BRK_RTI` in that of their fault. -/
theorem exec_next_of_calm (i : Instr) {s : State} (hs : s.Calm) : ∃ t, exec i s = .next t := by
  rcases exec_accesses i s with ⟨u, he, -, hu⟩ | ⟨-, he⟩
  · exact ⟨_, he.trans (complete_calm (hu _ (calm_accessClosed _ _) hs))⟩
  · have hcalm : (raiseUnimplemented i.opcode (s.pc - 1) s).Calm := hs
    exact ⟨_, he.trans (finish_calm hcalm)⟩

section unwritten
variable {i : Instr} {s : State} (hs : s.Calm) (hc : s.written.cycles = false)
include hs hc

theorem execute_of_firstUnwritten {t : State} (h : firstUnwritten i s = some t) (op : Byte) (pc0 : Word) :
    execute op pc0 i s = .next (raiseUndefinedRead (some op) (some pc0) t) := by
  have hw : s.written ≠ .every true := fun hw => by simp [hw, Written.every] at hc
  have hcalm : (raiseUndefinedRead (some op) (some pc0) t).Calm := (firstUnwritten_calm hs h).1
  rw [execute, if_neg hw, h]
  exact finish_calm hcalm

/-- Where every register the rule reads is written, the fault comes at the read of `cycles`, after the whole effect. -/
theorem execute_of_firstUnwritten_none (h : firstUnwritten i s = none) (op : Byte) (pc0 : Word) :
    ∃ t, exec i s = .next t ∧ execute op pc0 i s = .next (raiseUndefinedRead (some op) (some pc0)
      ((t.setWritten ((destinations i).foldl Written.mark s.written)).setCycles s.cycles)) := by
  have hw : s.written ≠ .every true := fun hw => by simp [hw, Written.every] at hc
  obtain ⟨t, ht⟩ := exec_next_of_calm i hs
  refine ⟨t, ht, ?_⟩
  rw [execute, if_neg hw, h, ht]
  simp only [settleWrites, hc]
  rfl

/-- In both cases the step ends in the fault, `cycles` being neither written nor changed and nothing taken off the trace. -/
theorem execute_unwritten (i : Instr) (op : Byte) (pc0 : Word) :
    ∃ u, execute op pc0 i s = .next (raiseUndefinedRead (some op) (some pc0) u) ∧ u.cycles = s.cycles ∧
      u.written.cycles = false ∧ s.trace <+: u.trace := by
  cases h : firstUnwritten i s with
  | some t =>
    have hk := firstUnwritten_closed stepKeeps_stepClosed h
    exact ⟨t, execute_of_firstUnwritten hs hc h op pc0, (firstUnwritten_calm hs h).2, hk.cyclesWritten.trans hc, hk.trace⟩
  | none =>
    obtain ⟨t, ht, he⟩ := execute_of_firstUnwritten_none hs hc h op pc0
    exact ⟨_, he, rfl, (foldl_mark_keeps _ _ .cycles (destinations_no_pc_cycles i).2).trans hc,
      (exec_closed stepKeeps_stepClosed ht).trace⟩

end unwritten

theorem fetched_calm {s : State} (hs : s.Calm) (f : Form) : (fetched f s).2.Calm := by
  have hcalm : ((s.afterRead s.pc).setPc (s.pc + 1)).Calm := afterRead_calm hs s.pc
  cases f with
  | f1 i => exact hcalm
  | f2 mk => exact afterRead_calm hcalm (s.pc + 1)
  | f3 mk => exact readPair_calm hcalm (s.pc + 1) (s.pc + 1 + 1)

theorem fetched_cycles (f : Form) (s : State) : (fetched f s).2.cycles = s.cycles := by
  cases f <;> simp [fetched, fetchOperand, State.memRead, State.readShort]

/-- A step on a mapped opcode with `cycles` unwritten ends in the fault with that opcode and its address. -/
theorem step_cycles_unwritten {s : State} {f : Form} (hs : s.Calm) (hrun : s.running = true) (hpc : s.written.pc = true)
    (hc : s.written.cycles = false) (hf : decodeOpcode s.cfg.enableBrkRti (s.peek s.pc) = some f) :
    ∃ u, step s = .next (raiseUndefinedRead (some (s.peek s.pc)) (some s.pc) u) ∧ u.cycles = s.cycles ∧
      u.written.cycles = false ∧ s.trace <+: u.trace ∧
      step s = execute (s.peek s.pc) s.pc (fetched f s).1 (fetched f s).2 := by
  have hstep : step s = execute (s.peek s.pc) s.pc (fetched f s).1 (fetched f s).2 := by rw [running_step hrun hpc, hf]
  obtain ⟨u, hu, hcyc, hcw, htr⟩ := execute_unwritten (fetched_calm hs f)
    ((congrArg Written.cycles (fetched_written f s)).trans hc) (fetched f s).1 (s.peek s.pc) s.pc
  exact ⟨u, hstep.trans hu, hcyc.trans (fetched_cycles f s), hcw,
    (fetched_closed stepKeeps_stepClosed.toCpuClosed f s).trace.trans htr, hstep⟩

/-- Settles O7: the fault comes at `firstUnwritten` or after the whole effect; the phases are read off the lemmas above. -/
theorem unwrittenRegisterRaises : Obligations.UnwrittenRegisterRaises := by
  refine ⟨fun s f hs hrun hpc hc hf => ?_, fun i s op pc0 hs hc => ?_, fun s hd hrun hpc => ?_⟩
  · obtain ⟨u, hu, hcyc, hcw, ⟨events, htr⟩, hstep⟩ := step_cycles_unwritten hs hrun hpc hc hf
    exact ⟨_, events, hu, rfl, by rw [htr]; rfl, hcyc, hcw, hstep⟩
  · intro stop
    have hstop {t : State} (h : firstUnwritten i s = some t) : execute op pc0 i s = .next (stop t) :=
      execute_of_firstUnwritten hs hc h op pc0
    refine ⟨fun m ho => ?_, fun hrule hmem => ?_, fun ho ha => ?_, fun hi hsp hflags => ?_, fun w => rfl, fun h => ?_⟩
    · intro ea s1
      refine ⟨fun h => hstop (firstUnwritten_index ho h), fun h => ⟨fun hl => hstop (firstUnwritten_lateIndex ho h hl),
        fun hl hr => ⟨fun hmn => hstop ?_, fun hmn => hstop ?_⟩⟩, fun hmn hmode => firstUnwritten_readsNone hmn ho hmode⟩
      · rw [firstUnwritten_rule ho h hl hr, readsOperandByte_of_store _ hmn]
        rfl
      · rw [firstUnwritten_rule ho h hl hr, readsOperandByte_of_value _ hmn]
        rfl
    · rcases hmem with ho | hjsr
      · exact hstop (firstUnwritten_of_no_mem ho hrule)
      · exact hstop (firstUnwritten_jsr hjsr hrule)
    · exact hstop (firstUnwritten_acc ho (by rw [covers_cons, show s.written.has .a = false from ha, Bool.false_and]))
    · subst hi
      exact hstop (firstUnwritten_brk hsp hflags)
    · exact execute_of_firstUnwritten_none hs hc h op pc0
  · rw [step_of_pc_unwritten hrun hpc]
    exact finish_of_not_diverged hd

end Sys2Proof.Machine
end

section
/-! SUPPORT. The family of 60_exceptions.md, fourth part: batches and runs (R433, R438). What a step does to the Fault events
decides how a batch ends; a run ends at the first batch that returns with `running` false. -/

namespace Sys2Proof.Machine

/-! What a step does to the Fault events. -/

/-- Not running, with a Fault event as the last one emitted. -/
def JustFaulted (t : State) : Prop := t.running = false ∧ ∃ l kind op pc, t.trace = l ++ [.fault kind op pc]

theorem justFaulted_raiseUnimplemented (op : Byte) (pc0 : Word) (s : State) : JustFaulted (raiseUnimplemented op pc0 s) :=
  ⟨rfl, _, _, _, _, rfl⟩

theorem justFaulted_raiseUndefinedRead (op : Option Byte) (pc0 : Option Word) (s : State) :
    JustFaulted (raiseUndefinedRead op pc0 s) := ⟨rfl, _, _, _, _, rfl⟩

theorem sameFaults_cpuClosed : CpuClosed SameFaults where
  bus := sameFaults_closed
  a _ _ := rfl
  x _ _ := rfl
  y _ _ := rfl
  sp _ _ := rfl
  pc _ _ := rfl
  flags _ _ := rfl
  cycles _ _ := rfl

/-- An instruction that takes no fault emits no Fault event. -/
theorem exec_faults {i : Instr} {s t : State} (h : exec i s = .next t) : JustFaulted t ∨ SameFaults s t := by
  rcases exec_cases i s with ⟨u, he, hu⟩ | ⟨-, he⟩ <;> rw [he] at h
  · exact .inr (complete_closed sameFaults_cpuClosed (hu _ sameFaults_cpuClosed) h)
  · exact .inl ((finish_eq_next h).1 ▸ justFaulted_raiseUnimplemented _ _ s)

theorem settleWrites_faults (op : Byte) (pc0 : Word) (i : Instr) {s t : State} (h : JustFaulted t ∨ SameFaults s t) :
    JustFaulted (settleWrites op pc0 i s t) ∨ SameFaults s (settleWrites op pc0 i s t) := by
  unfold settleWrites
  dsimp only
  split
  · exact h
  · exact .inl (justFaulted_raiseUndefinedRead _ _ _)

theorem execute_faults {op : Byte} {pc0 : Word} {i : Instr} {s t : State} (h : execute op pc0 i s = .next t) :
    JustFaulted t ∨ SameFaults s t := by
  rcases execute_cases op pc0 i s with he | ⟨u, -, he⟩ | ⟨u, hu, he⟩ | ⟨r, -, he⟩ <;> rw [he] at h
  · exact exec_faults h
  · exact .inl ((finish_eq_next h).1 ▸ justFaulted_raiseUndefinedRead _ _ u)
  · exact Host.Outcome.next.inj h ▸ settleWrites_faults op pc0 i (exec_faults hu)
  · cases h

/-- A step that takes no fault emits no Fault event. -/
theorem step_faults {s t : State} (h : step s = .next t) : JustFaulted t ∨ SameFaults s t := by
  rcases step_cases s with he | he | he | ⟨f, -, he⟩ <;> rw [he] at h
  · exact .inr ((finish_eq_next h).1 ▸ rfl)
  · exact .inl ((finish_eq_next h).1 ▸ justFaulted_raiseUndefinedRead _ _ s)
  · exact .inl ((finish_eq_next h).1 ▸ justFaulted_raiseUnimplemented _ _ _)
  · exact (execute_faults h).imp_right fun hu => hu.trans (fetched_closed sameFaults_cpuClosed f s)

/-! How a batch ends (60_exceptions.md R433). -/

/-- A batch that returns Stopped has seen `running` false; one that returns Fault has just taken a fault. -/
theorem batchWith_end {turns : List Turn} {s t : State} :
    (batchWith turns s = (.stopped, t) → t.running = false) ∧ (batchWith turns s = (.fault, t) → JustFaulted t) := by
  induction turns generalizing s with
  | nil => exact ⟨nofun, nofun⟩
  | cons cs turns ih =>
    rw [batchWith_cons]
    split
    · next s1 _ =>
      rcases batchWith_look_cases turns s1 with ⟨hrun, h⟩ | h | ⟨u, hu, ⟨hf, h⟩ | h⟩ <;> rw [h]
      · exact ⟨fun ht => (Prod.mk.inj ht).2 ▸ hrun, nofun⟩
      · exact ⟨nofun, nofun⟩
      · refine ⟨nofun, fun ht => (Prod.mk.inj ht).2 ▸ (step_faults hu).resolve_right fun hsame => ?_⟩
        exact absurd hf (hsame ▸ Nat.lt_irrefl _)
      · exact ih
    · exact ⟨nofun, nofun⟩

/-- A batch of two lists of turns is a batch of the first, and where that yields a batch of the second. -/
theorem batchWith_append (l l' : List Turn) (s : State) :
    batchWith (l ++ l') s = match batchWith l s with
      | (.yielded, s') => batchWith l' s'
      | r => r := by
  induction l generalizing s with
  | nil => rfl
  | cons cs l ih =>
    rw [List.cons_append, batchWith_cons, batchWith_cons]
    cases giveAll cs s with
    | none => rfl
    | some s1 =>
      simp only [batchWith, giveAll]
      split
      · split
        · split
          · rfl
          · exact ih _
        · rfl
        · rfl
      · rfl

/-- A stop that a run undoes before the look at `running` is not seen. -/
theorem batchWith_stop_run (cs : Turn) (turns : List Turn) {s : State} (hd : s.diverged = false) (hrun : s.running = true) :
    batchWith ((.stop :: .run :: cs) :: turns) s = batchWith (cs :: turns) s := by
  have hback : (s.setRunning false).setRunning true = s := by rw [← hrun]; rfl
  have hgive : giveAll (.stop :: .run :: cs) s = giveAll cs s := by
    have hstop : finish (s.setRunning false) = .next (s.setRunning false) := finish_of_not_diverged hd
    have hcont : finish ((s.setRunning false).setRunning true) = .next s := by rw [hback]; exact finish_of_not_diverged hd
    rw [giveAll, show (command .stop s).2 = s.setRunning false from rfl, hstop]
    dsimp only
    rw [giveAll, show (command .run (s.setRunning false)).2 = (s.setRunning false).setRunning true from rfl, hcont]
  rw [batchWith_cons, batchWith_cons, hgive]

/-! Where a run ends (60_exceptions.md R438). -/

/-- The state after some batches one after another. -/
def afterBatches (batches : List (List Turn)) (s : State) : State := batches.foldl (fun s b => (batchWith b s).2) s

/-- Every batch of these, run one after another, returns with `running` true; one of no turns is none. -/
def AllGoOn : List (List Turn) → State → Prop
  | [], _ => True
  | b :: batches, s =>
    (b ≠ [] → (batchWith b s).1 ≠ .stuck ∧ (batchWith b s).2.running = true) ∧ AllGoOn batches (batchWith b s).2

/-- The same, said of the place of each batch in the list. -/
theorem allGoOn_iff (batches : List (List Turn)) (s : State) :
    AllGoOn batches s ↔ ∀ l b l', batches = l ++ b :: l' → b ≠ [] →
      (batchWith b (afterBatches l s)).1 ≠ .stuck ∧ (batchWith b (afterBatches l s)).2.running = true := by
  induction batches generalizing s with
  | nil => simp [AllGoOn]
  | cons b0 batches ih =>
    rw [AllGoOn, ih]
    constructor
    · rintro ⟨h0, h⟩ l b l' hl
      cases l with
      | nil => exact (List.cons.inj hl).1 ▸ h0
      | cons b1 l =>
        obtain ⟨rfl, hl'⟩ := List.cons.inj hl
        exact h l b l' hl'
    · intro h
      exact ⟨h [] b0 batches rfl, fun l b l' hl => h (b0 :: l) b l' (congrArg (b0 :: ·) hl)⟩

theorem runEnd_cons {b : List Turn} (hb : b ≠ []) (batches : List (List Turn)) (s : State) :
    runEnd (b :: batches) s = if (batchWith b s).1 = .stuck then none
      else if (batchWith b s).2.running then runEnd batches (batchWith b s).2 else some (batchWith b s).2 := by
  cases b with
  | nil => exact absurd rfl hb
  | cons cs turns =>
    rw [runEnd]
    rcases batchWith (cs :: turns) s with ⟨r, t⟩
    cases r <;> rfl

/-- Batches that all go on do not end a run. -/
theorem runEnd_append {before : List (List Turn)} {s : State} (h : AllGoOn before s) (batches : List (List Turn)) :
    runEnd (before ++ batches) s = runEnd batches (afterBatches before s) := by
  induction before generalizing s with
  | nil => rfl
  | cons b before ih =>
    obtain ⟨hb, h⟩ := h
    refine Eq.trans ?_ (ih h)
    by_cases hne : b = []
    · subst hne; rfl
    · obtain ⟨hstuck, hrun⟩ := hb hne
      rw [List.cons_append, runEnd_cons hne, if_neg hstuck, if_pos hrun]

/-- The first of these batches that returns with `running` false does so at `t`. -/
def EndsAt (batches : List (List Turn)) (s t : State) : Prop :=
  ∃ before b after r, batches = before ++ b :: after ∧ b ≠ [] ∧ AllGoOn before s ∧
    batchWith b (afterBatches before s) = (r, t) ∧ r ≠ .stuck ∧ t.running = false

theorem endsAt_cons_of_goOn {b : List Turn} {batches : List (List Turn)} {s t : State}
    (hb : b ≠ [] → (batchWith b s).1 ≠ .stuck ∧ (batchWith b s).2.running = true) (h : EndsAt batches (batchWith b s).2 t) :
    EndsAt (b :: batches) s t := by
  obtain ⟨before, b', after, r, rfl, hb', hbefore, hr⟩ := h
  exact ⟨b :: before, b', after, r, rfl, hb', ⟨hb, hbefore⟩, hr⟩

theorem runEnd_eq_some_iff {batches : List (List Turn)} {s t : State} :
    runEnd batches s = some t ↔ EndsAt batches s t := by
  constructor
  · induction batches generalizing s with
    | nil => exact nofun
    | cons b batches ih =>
      intro h
      by_cases hne : b = []
      · subst hne
        exact endsAt_cons_of_goOn (absurd rfl) (ih h)
      · rw [runEnd_cons hne] at h
        split_ifs at h with hstuck hrun
        · exact endsAt_cons_of_goOn (fun _ => ⟨hstuck, hrun⟩) (ih h)
        · exact ⟨[], b, batches, _, rfl, hne, trivial, Prod.ext rfl (Option.some.inj h), hstuck,
            Option.some.inj h ▸ Bool.not_eq_true _ ▸ hrun⟩
  · rintro ⟨before, b, after, r, rfl, hb, hbefore, hr, hstuck, hrun⟩
    rw [runEnd_append hbefore, runEnd_cons hb, hr]
    simp [hstuck, hrun]

theorem isGood_iff (t : State) : t.isGood = true ↔ (∀ e ∈ t.trace, e.isFault = false) ∧ t.refusalMark = false := by
  simp [State.isGood, State.faultCount, List.countP_eq_zero]

theorem runStatus_eq_good_iff {batches : List (List Turn)} {s t : State} :
    runStatus batches s = .good t ↔ runEnd batches s = some t ∧ t.isGood = true := by
  unfold runStatus
  cases runEnd batches s with
  | none => exact ⟨nofun, nofun⟩
  | some u =>
    dsimp only
    split
    · next hu => exact ⟨fun h => by cases h; exact ⟨rfl, hu⟩, fun ⟨h, _⟩ => by cases h; rfl⟩
    · next hu => exact ⟨nofun, fun ⟨h, ht⟩ => absurd ht (Option.some.inj h ▸ hu)⟩

/-- Settles O56: `batchWith_end` for the answers, `batchWith_append` for the cut, and `runEnd_eq_some_iff` for the end of a
run, its batches placed by `allGoOn_iff`. -/
theorem batchesEndAsStated : Obligations.BatchesEndAsStated := by
  refine ⟨fun n s hrun => ?_, fun turns s t => batchWith_end.1, fun turns s t => batchWith_end.2, batchWith_cons,
    fun cs turns s hd hrun => batchWith_stop_run cs turns hd hrun, batchWith_append, fun batches s t => ?_,
    fun batches s t => ?_⟩
  · rw [batch, List.replicate_succ, batchWith]
    simp [giveAll, hrun]
  · rw [runEnd_eq_some_iff, EndsAt]
    simp only [allGoOn_iff]
    rfl
  · rw [runStatus_eq_good_iff, isGood_iff]

end Sys2Proof.Machine
end

section
/-! SUPPORT. The family of 60_exceptions.md, fifth part: `run`, `stop` and `evokeRunAtAddress` (R431, R432, R434). No instruction
reads `running`, so a stop before an instruction and a stop after it give the same state. -/

namespace Sys2Proof.Machine

/-! A stop commutes with the shared operations (60_exceptions.md R432). -/

section stopped
variable (s : State)

@[simp] theorem afterRead_stopped (a : Word) : (s.setRunning false).afterRead a = (s.afterRead a).setRunning false :=
  afterRead_comm stop_commutes s a
@[simp] theorem memWrite_stopped (a : Word) (v : Byte) :
    (s.setRunning false).memWrite a v = (s.memWrite a v).setRunning false := memWrite_comm stop_commutes s a v
@[simp] theorem setSp_stopped (v : Byte) : (s.setRunning false).setSp v = (s.setSp v).setRunning false := rfl
@[simp] theorem setPc_stopped (w : Word) : (s.setRunning false).setPc w = (s.setPc w).setRunning false := rfl
@[simp] theorem setFlags_stopped (f : Flags) :
    (s.setRunning false).setFlags f = (s.setFlags f).setRunning false := rfl

@[simp] theorem readPair_stopped (lo hi : Word) :
    (s.setRunning false).readPair lo hi = ((s.readPair lo hi).1, (s.readPair lo hi).2.setRunning false) := by
  simp [State.readPair, State.memRead]

@[simp] theorem effectiveAddress_stopped (m : MemMode) :
    effectiveAddress m (s.setRunning false) = ((effectiveAddress m s).1, (effectiveAddress m s).2.setRunning false) :=
  effectiveAddress_comm stop_commutes (fun _ => rfl) (fun _ => rfl) m s

@[simp] theorem push_stopped (v : Byte) : push v (s.setRunning false) = (push v s).setRunning false := by
  simp [push_eq]

@[simp] theorem pull_stopped : pull (s.setRunning false) = ((pull s).1, (pull s).2.setRunning false) := by
  simp [pull_eq]

@[simp] theorem pushWord_stopped (w : Word) : pushWord w (s.setRunning false) = (pushWord w s).setRunning false := by
  simp [pushWord]

@[simp] theorem pullWord_stopped :
    pullWord (s.setRunning false) = ((pullWord s).1, (pullWord s).2.setRunning false) := by
  simp [pullWord]

theorem operandValue_stopped (o : Operand) :
    operandValue o (s.setRunning false) = (operandValue o s).map fun x => (x.1, x.2.setRunning false) := by
  cases o with
  | mem m => simp [operandValue, State.memRead]
  | imp | acc | imm | ind | rel => rfl

end stopped

/-! And with the effects of the shapes. -/

theorem valueEffect_stopped {mn : Mnemonic} {eff : Byte → State → State} (h : valueEffect mn = some eff) (m : Byte)
    (s : State) : eff m (s.setRunning false) = (eff m s).setRunning false := by
  cases mn <;> cases h <;> rfl

theorem storeMem_stopped {mn : Mnemonic} {reg : State → Byte} (h : storedRegister mn = some reg) (m : MemMode)
    (s : State) : storeMem m reg (s.setRunning false) = (storeMem m reg s).setRunning false := by
  have hreg : ∀ s : State, reg (s.setRunning false) = reg s := by cases mn <;> cases h <;> exact fun _ => rfl
  simp [storeMem, hreg]

theorem modifyMem_stopped (alu : Byte → Flags → Byte × Flags) (m : MemMode) (s : State) :
    modifyMem m alu (s.setRunning false) = (modifyMem m alu s).setRunning false := by
  simp [modifyMem, State.memRead]

theorem onRel_stopped (cond : Flags → Bool) (o : Operand) (s : State) :
    onRel cond o (s.setRunning false) = (onRel cond o s).setRunning false := by
  cases o with
  | rel d => exact (apply_ite (State.setRunning false) _ (s.setPc (s.pc + sext d)) s).symm
  | imp | acc | imm | mem | ind => rfl

theorem jumpTo_stopped (o : Operand) (s : State) : jumpTo o (s.setRunning false) = (jumpTo o s).setRunning false := by
  unfold jumpTo
  split
  · rfl
  · simp [indirectTarget]
  · rfl

theorem callTo_stopped (o : Operand) (s : State) : callTo o (s.setRunning false) = (callTo o s).setRunning false := by
  unfold callTo
  split
  · simp [callSubroutine]
  · rfl

theorem plainEffect_stopped {mn : Mnemonic} {eff : Operand → State → State} (h : plainEffect mn = some eff) (o : Operand)
    (s : State) : eff o (s.setRunning false) = (eff o s).setRunning false := by
  cases mn <;> cases h
  case pha | php => exact push_stopped s _
  case pla | plp => simp only [pull_stopped]; rfl
  case jmp => exact jumpTo_stopped o s
  case jsr => exact callTo_stopped o s
  case rts => simp only [returnSubroutine, pullWord_stopped]; rfl
  case bpl | bmi | bvc | bvs | bcc | bcs | bne | beq => exact onRel_stopped _ o s
  all_goals rfl

theorem enterBreak_stopped (s : State) : enterBreak (s.setRunning false) = (enterBreak s).setRunning false := by
  simp [enterBreak, State.readShort]

theorem returnFromBreak_stopped (s : State) :
    returnFromBreak (s.setRunning false) = (returnFromBreak s).setRunning false := by
  simp [returnFromBreak]

/-! The outcome of an instruction. -/

/-- The same outcome, its next state stopped. -/
def stopNext : Host.Outcome State Fault Refusal → Host.Outcome State Fault Refusal
  | .next t => .next (t.setRunning false)
  | .fault r => .fault r
  | .refused r => .refused r

theorem finish_stopped (s : State) : finish (s.setRunning false) = stopNext (finish s) := by
  unfold finish
  rw [setRunning_diverged]
  split <;> rfl

theorem complete_stopped (op : Byte) (s : State) : complete op (s.setRunning false) = stopNext (complete op s) :=
  finish_stopped (s.setCycles (s.cycles + cycleCostOf s.cfg op))

theorem brkRti_stopped {effect : State → State} (h : ∀ s : State, effect (s.setRunning false) = (effect s).setRunning false)
    (op : Byte) (s : State) : brkRti op effect (s.setRunning false) = stopNext (brkRti op effect s) := by
  unfold brkRti
  rw [setRunning_cfg, h]
  split
  · exact complete_stopped op (effect s)
  · exact finish_stopped (raiseUnimplemented op (s.pc - 1) s)

/-- An instruction runs to its end whether the CPU was stopped before it or is stopped after it. -/
theorem exec_stopped (i : Instr) (s : State) : exec i (s.setRunning false) = stopNext (exec i s) := by
  rcases instr_shape i with ⟨eff, he⟩ | ⟨reg, he⟩ | ⟨alu, he⟩ | ⟨eff, he⟩ | rfl | rfl
  · obtain ⟨m, s1, ho, hs⟩ := exec_value he s
    obtain ⟨m', s1', ho', hs'⟩ := exec_value he (s.setRunning false)
    rw [operandValue_stopped, ho] at ho'
    obtain ⟨rfl, rfl⟩ := Prod.mk.inj (Option.some.inj ho')
    rw [hs', hs, valueEffect_stopped he, complete_stopped]
  · obtain ⟨m, ho, hs⟩ := exec_store he s
    obtain ⟨m', ho', hs'⟩ := exec_store he (s.setRunning false)
    obtain rfl : m = m' := Operand.mem.inj (ho.symm.trans ho')
    rw [hs', hs, storeMem_stopped he, complete_stopped]
  · rcases exec_modify he s with ⟨ho, hs⟩ | ⟨m, ho, hs⟩ <;>
      rcases exec_modify he (s.setRunning false) with ⟨ho', hs'⟩ | ⟨m', ho', hs'⟩
    · rw [hs', hs]
      exact complete_stopped _ (modifyAcc alu s)
    · cases ho.symm.trans ho'
    · cases ho.symm.trans ho'
    · obtain rfl : m = m' := Operand.mem.inj (ho.symm.trans ho')
      rw [hs', hs, modifyMem_stopped, complete_stopped]
  · rw [exec_plain he, exec_plain he, plainEffect_stopped he, complete_stopped]
  · exact brkRti_stopped enterBreak_stopped 0x00 s
  · exact brkRti_stopped returnFromBreak_stopped 0x40 s

theorem setRunning_self {s : State} {b : Bool} (h : s.running = b) : s.setRunning b = s := by
  subst h
  rfl

/-- Settles O57: the three commands are record updates, a stopped machine's step is `finish`, and `exec_stopped`. -/
theorem runStopEvoke : Obligations.RunStopEvoke := by
  refine fun s a => ⟨setRunning_self, rfl, rfl, rfl, rfl, rfl, setRunning_self, fun hd => ?_, fun i t h => ?_⟩
  · exact (step_of_not_running rfl).trans (finish_of_not_diverged hd)
  · exact (exec_stopped i s).trans (congrArg stopNext h)

end Sys2Proof.Machine
end

section
/-! SUPPORT. The family of 60_exceptions.md, sixth part: the PIA (R411 to R416). At its addresses the PIA's handler comes first
and the host handlers after it only record, so an access there is the PIA's rule and then their events. -/

namespace Sys2Proof.Machine

/-! The PIA's bytes as numbers: bit 7 clear, bit 7 set. -/

theorem and_7F_eq_ofNat (b : Byte) : b &&& 0x7F = BitVec.ofNat 8 (b.toNat % 128) := by
  apply BitVec.eq_of_toNat_eq
  rw [BitVec.toNat_and, show (0x7F : Byte).toNat = 2 ^ 7 - 1 from rfl, Nat.and_two_pow_sub_one_eq_mod, BitVec.toNat_ofNat]
  omega

theorem and_7F_or_80_eq_ofNat (b : Byte) : b &&& 0x7F ||| 0x80 = BitVec.ofNat 8 (b.toNat % 128 + 128) := by
  have hlt : b.toNat % 128 < 2 ^ 7 := Nat.mod_lt _ (by decide)
  apply BitVec.eq_of_toNat_eq
  rw [and_7F_eq_ofNat, BitVec.or_comm, BitVec.toNat_or, BitVec.toNat_ofNat, Nat.mod_eq_of_lt (by omega),
    show (0x80 : Byte).toNat = 1 <<< 7 from rfl, ← Nat.shiftLeft_add_eq_or_of_lt hlt, BitVec.toNat_ofNat]
  omega

theorem and_7F_or_80 : ∀ b : Byte, b &&& 0x7F ||| 0x80 = b ||| 0x80 := by decide

theorem or_80_eq_ofNat (b : Byte) : b ||| 0x80 = BitVec.ofNat 8 (b.toNat % 128 + 128) :=
  (and_7F_or_80 b).symm.trans (and_7F_or_80_eq_ofNat b)

/-- The state with some events appended to the trace. -/
def State.emitAll (es : List Event) (s : State) : State := { s with trace := s.trace ++ es }

/-! What is left of an update once the array is put back. -/

section setMem
variable (s : State) (m : List Host.Cell)
theorem poke_setMem (a : Word) (v : Byte) : (s.poke a v).setMem m = s.setMem m := rfl
theorem setLatches_setMem (l : Latches) : (s.setLatches l).setMem m = (s.setMem m).setLatches l := rfl
theorem emitAll_setMem (es : List Event) : (s.emitAll es).setMem m = (s.setMem m).emitAll es := rfl
theorem setMem_self : s.setMem s.mem = s := rfl
end setMem

@[simp] theorem emitAll_peek (s : State) (es : List Event) (k : Word) : (s.emitAll es).peek k = s.peek k := rfl

/-- Handlers at an address after the PIA's that only record, if any (20_memory.md R79): the PIA's rule, then their events. -/
theorem runHandlers_pia {dir : Dir} {a : Word} {v : Byte} {s u : State} {g : Handler} {ids : List Nat}
    (hw : s.watchers dir a = g :: ids.map Handler.ext) (hu : invoke runHandlers dir a v s g = u) (hcfg : u.cfg = s.cfg)
    (hd : u.diverged = false) (hids : ids = [] ∨ s.cfg.extHandler = []) :
    runHandlers dir a v s = u.emitAll (ids.map fun h => .watchFired h dir a v) := by
  have hfold : (s.watchers dir a).foldl (invoke runHandlers dir a v) s =
      u.emitAll (ids.map fun h => .watchFired h dir a v) := by
    rw [hw, List.foldl_cons, hu]
    rcases hids with rfl | hext
    · simp [State.emitAll]
    · exact foldl_invoke_ext_of_recordOnly _ _ _ _ _ (hcfg ▸ hext)
  rw [runHandlers_eq_foldl (.inr (by rw [hfold]; exact hd)), hfold]

/-- A write at a PIA address is the array write and the PIA's rule (60_exceptions.md R413, R415, R416). -/
theorem memWrite_pia {s u : State} {a : Word} {v : Byte} {g : Handler} {ids : List Nat} (hs : s.suppress = false)
    (hw : s.watchers .write a = g :: ids.map Handler.ext) (hu : invoke runHandlers .write a v (s.poke a v) g = u)
    (hcfg : u.cfg = s.cfg) (hd : u.diverged = false) (hids : ids = [] ∨ s.cfg.extHandler = []) :
    s.memWrite a v = u.emitAll (ids.map fun h => .watchFired h .write a v) :=
  (afterAccess_of_not_suppressed (s := s.poke a v) hs ..).trans (runHandlers_pia (s := s.poke a v) hw hu hcfg hd hids)

/-! What each handler's rule is, and what it leaves in the array. -/

theorem kbdRead_eq (s : State) : kbdRead s =
    (s.poke s.kbdcr (s.peek s.kbdcr &&& 0x7F)).setLatches { s.latches with inputAvailable := false } := rfl

theorem kbdcrWrite_eq (v : Byte) (s : State) : kbdcrWrite v s =
    (s.poke s.kbdcr (v &&& 0x7F ||| if s.latches.inputAvailable then 0x80 else 0)).setLatches
      { s.latches with inputEnabled := true } := rfl

theorem dspWrite_eq (v : Byte) (s : State) : dspWrite v s =
    (s.poke s.dsp (v &&& 0x7F)).emitAll (if s.latches.outputEnabled then [.outputChar v] else []) := by
  unfold dspWrite
  cases s.latches.outputEnabled with
  | true => rfl
  | false => simp only [State.emitAll, Bool.false_eq_true, if_false, List.append_nil]

/-- Two pokes of one address change no other byte. -/
theorem peek_poke_poke_ne (s : State) {a k : Word} (h : s.index k ≠ s.index a) (v w : Byte) :
    ((s.poke a v).poke a w).peek k = s.peek k :=
  (peek_poke_ne (s.poke a v) a k w h).trans (peek_poke_ne s a k v h)

theorem bit7_eq_ofNat (v : Byte) (b : Bool) :
    v &&& 0x7F ||| (if b then 0x80 else 0) = BitVec.ofNat 8 (v.toNat % 128 + (if b then 128 else 0)) := by
  cases b with
  | true => exact and_7F_or_80_eq_ofNat v
  | false => exact BitVec.or_zero.trans (and_7F_eq_ofNat v)

/-- Settles O48: the read is `kbdRead`, which clears the latch and bit 7 of KBDCR. -/
theorem keyboardReadConsumes : Obligations.KeyboardReadConsumes := by
  intro s ids hd hs hw hids t
  have ht : t = (kbdRead s).emitAll (ids.map fun h => .watchFired h .read s.kbd (s.peek s.kbd)) :=
    (afterAccess_of_not_suppressed hs ..).trans (runHandlers_pia hw rfl rfl hd hids)
  rw [kbdRead_eq] at ht
  clear_value t
  subst ht
  refine ⟨rfl, rfl, ?_, fun k hk => ?_, rfl, rfl, ?_⟩
  · rw [emitAll_peek, setLatches_peek, peek_poke_self, and_7F_eq_ofNat]
  · rw [emitAll_peek, setLatches_peek, peek_poke_ne _ _ _ _ hk]
  · rw [emitAll_setMem, setLatches_setMem, poke_setMem, setMem_self]
    rfl

section writes
variable {s : State} {ids : List Nat} (hd : s.diverged = false) (hs : s.suppress = false)
  (hids : ids = [] ∨ s.cfg.extHandler = []) (v : Byte)
include hd hs hids

theorem memWrite_kbdcr (hw : s.watchers .write s.kbdcr = .kbdcrWrite :: ids.map Handler.ext) :
    s.memWrite s.kbdcr v = (((s.poke s.kbdcr v).poke s.kbdcr
      (v &&& 0x7F ||| if s.latches.inputAvailable then 0x80 else 0)).setLatches
        { s.latches with inputEnabled := true }).emitAll (ids.map fun h => .watchFired h .write s.kbdcr v) :=
  memWrite_pia hs hw (kbdcrWrite_eq v (s.poke s.kbdcr v)) rfl hd hids

theorem memWrite_dsp (hw : s.watchers .write s.dsp = .dspWrite :: ids.map Handler.ext) :
    s.memWrite s.dsp v = (((s.poke s.dsp v).poke s.dsp (v &&& 0x7F)).emitAll
      (if s.latches.outputEnabled then [.outputChar v] else [])).emitAll
        (ids.map fun h => .watchFired h .write s.dsp v) :=
  memWrite_pia hs hw (dspWrite_eq v (s.poke s.dsp v)) rfl hd hids

theorem memWrite_dspcr (hw : s.watchers .write s.dspcr = .dspcrWrite :: ids.map Handler.ext) :
    s.memWrite s.dspcr v = ((s.poke s.dspcr v).setLatches { s.latches with outputEnabled := true }).emitAll
      (ids.map fun h => .watchFired h .write s.dspcr v) :=
  memWrite_pia hs hw rfl rfl hd hids

end writes

/-- Settles O49: each write is the array write and the handler's rule, `kbdcrWrite`, `dspWrite` or `dspcrWrite`. -/
theorem controlAndDisplayWrites : Obligations.ControlAndDisplayWrites := by
  intro s v ids hd hs hids fired
  refine ⟨fun hw => ?_, fun hw => ?_, fun hw => ?_⟩
  · rw [memWrite_kbdcr hd hs hids v hw]
    refine ⟨?_, fun k hk => ?_, ?_⟩
    · rw [emitAll_peek, setLatches_peek, peek_poke_self, bit7_eq_ofNat]
    · rw [emitAll_peek, setLatches_peek, peek_poke_poke_ne s hk]
    · rw [emitAll_setMem, setLatches_setMem, poke_setMem, poke_setMem, setMem_self]
      rfl
  · rw [memWrite_dsp hd hs hids v hw]
    refine ⟨?_, fun k hk => ?_, ?_⟩
    · rw [emitAll_peek, emitAll_peek, peek_poke_self, and_7F_eq_ofNat]
    · rw [emitAll_peek, emitAll_peek, peek_poke_poke_ne s hk]
    · rw [emitAll_setMem, emitAll_setMem, poke_setMem, poke_setMem, setMem_self]
      rfl
  · rw [memWrite_dspcr hd hs hids v hw]
    refine ⟨?_, fun k hk => ?_, ?_⟩
    · rw [emitAll_peek, setLatches_peek, peek_poke_self]
    · rw [emitAll_peek, setLatches_peek, peek_poke_ne _ _ _ _ hk]
    · rw [emitAll_setMem, setLatches_setMem, poke_setMem, setMem_self]
      rfl

/-- A character that is not dropped is two array writes and a latch (60_exceptions.md R414). -/
theorem processInputChar_of_kept {s : State} (h : ¬ (s.cfg.piaDropWhenDisabled = true ∧ s.latches.inputEnabled = false))
    (c : Byte) : processInputChar c s = ((s.poke s.kbd (c ||| 0x80)).poke s.kbdcr
      ((s.poke s.kbd (c ||| 0x80)).peek s.kbdcr ||| 0x80)).setLatches { s.latches with inputAvailable := true } :=
  if_neg (by simpa using h)

/-- Settles O50: dropped, the character changes nothing; kept, it is the two array writes of `processInputChar_of_kept`. -/
theorem inputCharacterIsDelivered : Obligations.InputCharacterIsDelivered := by
  intro s c t
  refine ⟨fun ⟨hdrop, hin⟩ => if_pos (by simp [hdrop, hin]), fun hkeep => ?_⟩
  have ht : t = ((s.poke s.kbd (c ||| 0x80)).poke s.kbdcr ((s.poke s.kbd (c ||| 0x80)).peek s.kbdcr ||| 0x80)).setLatches
    { s.latches with inputAvailable := true } := processInputChar_of_kept hkeep c
  clear_value t
  subst ht
  refine ⟨?_, fun k hkbd hcr => ?_, fun hne => ⟨?_, ?_⟩, fun heq => ?_⟩
  · rw [setLatches_setMem, poke_setMem, poke_setMem, setMem_self]
  · rw [setLatches_peek, peek_poke_ne (s.poke s.kbd _) _ _ _ hcr, peek_poke_ne _ _ _ _ hkbd]
  · rw [setLatches_peek, peek_poke_ne (s.poke s.kbd _) _ _ _ hne, peek_poke_self, or_80_eq_ofNat]
  · rw [setLatches_peek, peek_poke_self, peek_poke_ne _ _ _ _ (Ne.symm hne), or_80_eq_ofNat]
  · rw [setLatches_peek, peek_poke, poke_index, poke_index, if_pos heq, peek_poke, if_pos heq.symm, BitVec.or_assoc,
      BitVec.or_self, or_80_eq_ofNat]

end Sys2Proof.Machine
end

section
/-! SUPPORT. The family of 70_reset_and_hazards.md: CPU `reset()` (R460). It is the register writes of `resetRegisters`, then the
two dispatched reads of the vector. -/

namespace Sys2Proof.Machine

/-- CPU `reset()` with the vector's addresses and its word as numbers. -/
theorem cpuReset_eq_ofNat (s : State) :
    let lo := s.cfg.resetVector
    let hi := BitVec.ofNat 16 ((lo.toNat + 1) % 65536)
    cpuReset s = { (s.resetRegisters.afterRead lo).afterRead hi with
      pc := BitVec.ofNat 16 (((s.resetRegisters.afterRead lo).peek hi).toNat * 256 + (s.peek lo).toNat)
      written := .every true } := by
  intro lo hi
  rw [cpuReset_eq, State.readShort, readPair_eq, word_succ_eq_ofNat]
  rfl

theorem cpuReset_of_silent {s : State} (h : s.Silent) :
    let lo := s.cfg.resetVector
    let hi := BitVec.ofNat 16 ((lo.toNat + 1) % 65536)
    cpuReset s = { s.resetRegisters with
      pc := BitVec.ofNat 16 ((s.peek hi).toNat * 256 + (s.peek lo).toNat), written := .every true } := by
  have hsilent : s.resetRegisters.Silent := h
  intro lo hi
  rw [cpuReset_eq_ofNat, silent_afterRead hsilent, silent_afterRead hsilent]
  rfl

/-- Where no handler runs, a second reset finds every register as the first one left it. -/
theorem cpuReset_twice_of_silent {s : State} (h : s.Silent) : cpuReset (cpuReset s) = cpuReset s := by
  have hsilent : (cpuReset s).Silent := by rw [cpuReset_of_silent h]; exact h
  rw [cpuReset_of_silent hsilent, cpuReset_of_silent h]
  rfl

/-- Settles O53: `cpuReset_eq_ofNat`, the vector reads writing no register (`SameCpu`). -/
theorem cpuResetLoadsRegistersAndVector : Obligations.CpuResetLoadsRegistersAndVector := by
  intro s t r lo hi
  have ht : t = _ := cpuReset_eq_ofNat s
  have hcpu : SameCpu r ((r.afterRead lo).afterRead hi) :=
    sameCpu_closed.trans (afterRead_sameCpu r lo) (afterRead_sameCpu _ hi)
  refine ⟨ht, ?_, ?_, ?_, ?_, ?_, ?_, ?_, ?_, fun h => ⟨cpuReset_of_silent h, cpuReset_twice_of_silent h⟩⟩ <;> rw [ht]
  · exact hcpu.a
  · exact hcpu.x
  · exact hcpu.y
  · exact hcpu.sp
  · exact hcpu.flags
  · exact hcpu.cycles
  · exact hcpu.suppress
  · exact hcpu.cfg

end Sys2Proof.Machine
end
